-- ==== Sys2Proof/Word.lean ====
section
/-!
DEFINITION. The word type, the lane mask and the lane value of the Celot architecture, with their plainest arithmetic.
A lane value is 32 data bits and the hidden poison bit (R44, R372).
-/
namespace Sys2Proof

/-- A 32-bit pattern. -/
abbrev Word := BitVec 32
/-- One byte. -/
abbrev Byte := BitVec 8
/-- A 64-bit program counter, address offset or counter. -/
abbrev DWord := BitVec 64
/-- A lane mask: bit L stands for lane L (R7). -/
abbrev Mask := BitVec 32
/-- An operand code (R44, R76). -/
abbrev Code := BitVec 8

/-- A 32-bit lane value with its hidden poison bit. Where `psn` is set, `bits` is the token (R372). -/
structure Val where
  bits : Word
  psn : Bool
  deriving DecidableEq, Repr, Inhabited

/-- A clean value. -/
def Val.clean (w : Word) : Val := { bits := w, psn := false }
/-- A poisoned value carrying a token. -/
def Val.poison (t : Word) : Val := { bits := t, psn := true }
/-- Clean zero. -/
def Val.zero : Val := Val.clean 0

/-- The number of lanes of a warp (R7). -/
def laneCount : Nat := 32

/-- A lane vector given lane by lane. -/
def lanes32 (f : Nat → α) : List α := (List.range 32).map f

/-- A list of lane values with one value in each lane. -/
def splat (v : Val) : List Val := List.replicate 32 v

/-- The value of lane `i`. -/
def laneOf (vs : List Val) (i : Nat) : Val := vs.getD i Val.zero

/-- Whether lane `i` is in the mask. -/
def Mask.has (m : Mask) (i : Nat) : Bool := m.getLsbD i

/-- The mask of the lanes for which `f` holds. -/
def maskOf (f : Nat → Bool) : Mask :=
  (List.range 32).foldl (fun m i => if f i then m ||| (1#32 <<< i) else m) 0#32

/-- The full mask. -/
def fullMask : Mask := 0xFFFFFFFF#32

/-- The lowest-numbered lane of a mask, or 0 when there is none. -/
def Mask.lowest (m : Mask) : Nat := ((List.range 32).find? (fun i => m.getLsbD i)).getD 0

/-- The number of lanes in a mask. -/
def Mask.count (m : Mask) : Nat := ((List.range 32).filter (fun i => m.getLsbD i)).length

/-- Lane values under a mask: the new value in the lanes of the mask, the old value elsewhere. -/
def mergeLanes (m : Mask) (new old : List Val) : List Val :=
  lanes32 fun i => if m.has i then laneOf new i else laneOf old i

/-- A 64-bit value from a low and a high word. -/
def joinWords (lo hi : Word) : DWord := hi ++ lo

/-- The low word of a 64-bit value. -/
def lowWord (d : DWord) : Word := d.setWidth 32
/-- The high word of a 64-bit value. -/
def highWord (d : DWord) : Word := (d >>> 32).setWidth 32

/-- Bits `lo + len - 1 : lo` of a natural number. -/
def bitsAt (x lo len : Nat) : Nat := x / 2 ^ lo % 2 ^ len

/-- Replace element `i` of a list by `f` of it; a list too short is left alone. -/
def updAt (l : List α) (i : Nat) (f : α → α) : List α := l.modify i f

/-- The natural number whose little-endian bytes are given (R7). -/
def leNat : List Byte → Nat
  | [] => 0
  | b :: bs => b.toNat + 256 * leNat bs

/-- The `n` little-endian bytes of a natural number (R7). -/
def natLE : Nat → Nat → List Byte
  | 0, _ => []
  | n + 1, x => BitVec.ofNat 8 x :: natLE n (x / 256)

end Sys2Proof
end

