-- ==== Sys2Proof/Config.lean ====
section
/-!
DEFINITION. What an implementation fixes and what the manual leaves open: constants with no body, so that no proof can
see a value of one. A statement about one holds for every value of it.
-/
namespace Sys2Proof

/-- Which of the moves the device could make next it makes at tick `n` (log 3). -/
opaque Config.choice : Nat → Nat

/-- What decides the plane (0) and the path (1) of packet `n`, each packet on its own (R276; log 3). -/
opaque Config.spray : Nat → Nat → Nat

/-- The set that a line takes in its home die's L2, and the 1 MiB region of stacked SRAM that a set and way lie in (R12, R200, R394; log 45). -/
opaque Config.l2Set : Nat → Nat
opaque Config.l2Region : Nat → Nat → Nat
/-- Whether a read at tick `n` leaves its line in L2 (0), and in which of the ways that it may take (1) (R200, R359; log 45). -/
opaque Config.l2Fill : Nat → Nat → Nat

/-- Whether the next relaxed load that issues after the step at tick `n` is performed later than it issues (R222, R275; log 72). -/
opaque Config.defer : Nat → Bool

/-- How many core-clock periods pass in the step at tick `n`, for each of the five counters of R318 (log 2). -/
opaque Config.cycles : Nat → Nat → Nat

/-- The cycles beyond R235's least that the result of a load, an atomic or a RELOAD takes at tick `n` (R235; log 55). -/
opaque Config.latency : Nat → Nat

/-- The shape code that SHAPE reports at tick `n` for a latch position whose result has not come (R65; log 56). -/
opaque Config.reservedShape : Nat → Nat

/-- The pattern the special-function unit delivers for function `op` at the given input, where R151 and R152 fix a bound
and not the bits. The machine keeps it within the bound (log 4). -/
opaque Config.sfu : Nat → Word → Word

/-- The pattern Exp2Fn delivers for the exact argument m * 2^e with m odd (R152, R153), kept within its bound (log 4). -/
opaque Config.exp2 : Int → Int → Word

/-- A firmware image (R365): whether it is the command processor's or the Safelight's, its security version number, what it runs, the digest
that it carries, the firmware key that it names, and its signature. -/
structure FirmwareImage where
  cp : Bool
  svn : Nat
  body : List Byte
  digest : List Byte
  key : Nat × Nat
  sig : Nat × Nat
  deriving DecidableEq, Repr, Inhabited

/-- How an image's bytes are laid out, which the manual does not say (R365; log 30). -/
opaque Config.parseImage : List Byte → Option FirmwareImage

/-- The hash of the firmware key that the fuses hold (R365; log 30). -/
opaque Config.keyHash : List Byte

/-- The fused identity key and identity secret (R364; log 30). -/
opaque Config.identityKey : Nat
opaque Config.identitySecret : List Byte

/-- The bytes from which the number k of the ECDSA signature of a message is drawn, at tick `n` (R364; log 30). -/
opaque Config.signNonce : Nat → List Byte → List Byte

/-- The certificates of the root CA, of the product CA and of the device, and what the alias certificate says of a public key (R364; log 30). -/
opaque Config.caChain : List Byte
opaque Config.aliasTbs : List Byte → List Byte

/-- The boot ROM, and the Safelight image and the command-processor image that a device is made with (R365, R366; log 30). -/
opaque Config.bootRom : List Byte
opaque Config.madeSafelight : List Byte
opaque Config.madeCp : List Byte

/-- Oteth's PCI-SIG vendor ID (R366; log 30). -/
opaque Config.vendorId : BitVec 16

/-- The reading of PLDM sensor `i` at tick `n` (R403; log 30). -/
opaque Config.sensor : Nat → Nat → Word

/-- The contents of the FRU EEPROM, byte by byte (R18; log 30). -/
opaque Config.fru : Nat → Byte

end Sys2Proof
end

