-- ==== Sys2Proof/Event.lean ====
section
/-!
DEFINITION. The data that events of the device carry: poison causes (R373), the ways a word is suppressed (R78, R79, R58,
R198), fabric packets (R276 to R293), responses, and the errors storage can show (R396).
-/
namespace Sys2Proof

/-- The causes of poison (R373). -/
inductive Cause where
  | pageMiss | protection | bounds | align | eccUncorrectable | linePoison | illegalEncoding | illegalOperand
  | deadRead | staleOperand | regBudget | stackLimit | queueQuota | waitTimeout | lostWrites | pairMismatch
  | rackOverflow | injected | contextKilled
  deriving DecidableEq, Repr, Inhabited

/-- The cause code of R373. -/
def Cause.code : Cause → Nat
  | .pageMiss => 0x01 | .protection => 0x02 | .bounds => 0x03 | .align => 0x04 | .eccUncorrectable => 0x05
  | .linePoison => 0x06 | .illegalEncoding => 0x07 | .illegalOperand => 0x08 | .deadRead => 0x09
  | .staleOperand => 0x0A | .regBudget => 0x0B | .stackLimit => 0x0C | .queueQuota => 0x0D | .waitTimeout => 0x0E
  | .lostWrites => 0x0F | .pairMismatch => 0x10 | .rackOverflow => 0x11 | .injected => 0x12 | .contextKilled => 0x13

/-- The cause codes that R373 calls serviceable. -/
def causeServiceable (code : Nat) : Bool := code == 0x01 || code == 0x05 || code == 0x0E || code == 0x0F

/-- The grade of a cause code: 0 REQUEUE, 1 RELOCATE, 2 REJECT, 3 INSPECT (R373, R399). -/
def causeGrade (code : Nat) : Nat :=
  if code == 0x06 then 3
  else if code == 0x10 then 1
  else if code == 0x01 || code == 0x05 || code == 0x0E || code == 0x0F || code == 0x11 || code == 0x12 || code == 0x13 then 0
  else 2

/-- Why a word has the effect of a suppressed word. -/
inductive Suppression where
  /-- Its OP is unassigned (R79). -/
  | encoding
  /-- Its OP is assigned and a field holds a reserved value (R79). -/
  | operand
  /-- A hint with reserved bits (R58). -/
  | hint
  /-- Its fetch met a fault of this cause (R198). -/
  | fetch (c : Cause)
  /-- Its fetch met a poison sector holding this token (R198). -/
  | sector (t : Word)
  deriving DecidableEq, Repr, Inhabited

/-- A reference to a warp: its workgroup's id and its index in the workgroup. -/
structure WarpRef where
  wg : Nat
  warp : Nat
  deriving DecidableEq, Repr, Inhabited

/-- What a write does to one 32-byte sector (R199): the bytes of `mask`, or poison. -/
structure SectorWrite where
  /-- Byte address of the sector, a multiple of 32. -/
  addr : Nat
  /-- Bit b: byte b is written. -/
  mask : Word
  /-- 32 bytes; those outside the mask carry no meaning. -/
  data : List Byte
  /-- The token, where the whole sector becomes a poison sector. -/
  poison : Option Word
  /-- Bit b: of byte b only the low nibble is written, the other keeping the value it has (R245). -/
  half : Word := 0#32
  deriving DecidableEq, Repr, Inhabited

/-- An atomic operation with its operands (R226). -/
structure AtomOp where
  /-- AOP code 0 to 14. -/
  aop : Nat
  /-- The access is 64 bits wide. -/
  wide : Bool
  /-- The operand, or the swap value of CAS. -/
  operand : DWord
  /-- The comparand of CAS. -/
  comparand : DWord
  /-- The rounding mode captured at issue, for FADD. -/
  rm : Nat
  deriving DecidableEq, Repr, Inhabited

/-- A counted write as it travels (R276, R281). -/
structure WritePacket where
  /-- Source node. -/
  src : Nat
  chan : Nat
  index : Word
  /-- The offset in SPACE 0 of the receive owner that the first byte names. -/
  off : DWord
  /-- Sector writes; their addresses are offsets. -/
  sectors : List SectorWrite
  /-- An ATOMN travels as its operation. -/
  atom : Option AtomOp
  deriving DecidableEq, Repr, Inhabited

/-- A release flag as it travels (R284). -/
structure FlagPacket where
  src : Nat
  chan : Nat
  off : DWord
  value : DWord
  count : Word
  deriving DecidableEq, Repr, Inhabited

/-- A loss notice (R289). -/
structure LossNotice where
  kind : Nat
  cause : Nat
  node : Nat
  chan : Nat
  count : Word
  arrival : Word
  off : DWord
  deriving DecidableEq, Repr, Inhabited

/-- A remote load or ATOM request (R266). -/
structure RemoteRequest where
  src : Nat
  chan : Nat
  /-- The issuer's name for the request. -/
  reqId : Nat
  /-- The index that a counted ATOM took. -/
  index : Word
  off : DWord
  /-- Bytes read by a load. -/
  size : Nat
  atom : Option AtomOp
  deriving DecidableEq, Repr, Inhabited

/-- The answer to a remote access (R293, R416, R368). -/
inductive Reply where
  /-- The words read, each with its poison. `peer` is the line's bytes where the issuing die keeps a peer line (R201). -/
  | data (words : List Val) (peer : Option (List Byte))
  /-- A cause met at the target, and no token (R416). -/
  | fault (c : Cause)
  deriving DecidableEq, Repr, Inhabited

/-- The host's completion of a SPACE 2 read or AtomicOp (R269). -/
inductive HostReply where
  | data (words : List Val)
  /-- Any status other than Successful Completion. -/
  | failed
  deriving DecidableEq, Repr, Inhabited

/-- What an error is found in (R396). -/
inductive ErrorKind where
  | corrected
  /-- Uncorrectable in a clean copy; the correct value is below. -/
  | cleanCopy
  /-- Uncorrectable in a dirty line of L1, L2 or a stash line. -/
  | dirtyLine
  /-- Uncorrectable in LPDDR5X. -/
  | dram
  deriving DecidableEq, Repr, Inhabited

/-- A resource that fails at run time (R11, R12, R401). -/
inductive Resource where
  | core (die core : Nat)
  | cluster (die cluster : Nat)
  /-- One of the ten links: the two dies it connects, the lower number first (R11). -/
  | link (a b : Nat)
  | channel (die chan : Nat)
  deriving DecidableEq, Repr, Inhabited

/-- Whether the device has a resource: four compute dies with 64 cores, 16 hardware clusters and eight memory channels each, and a link between
every two of the five dies (R11, R12). -/
def Resource.real : Resource → Bool
  | .core d c => decide (d < 4) && decide (c < 64)
  | .cluster d k => decide (d < 4) && decide (k < 16)
  | .link a b => decide (a < b) && decide (b < 5)
  | .channel d k => decide (d < 4) && decide (k < 8)

/-- A decision to preempt a unit: of Harog's own choice, or asked for by a function (R329). -/
structure PreemptAsk where
  cluster : Nat
  asker : Option Nat
  deriving DecidableEq, Repr, Inhabited
/-- The link of a port goes down, and comes up again in CXL mode or as PCI Express (R13, R362). -/
structure LinkDown where
  port : Nat
  cxl : Bool
  deriving DecidableEq, Repr, Inhabited

end Sys2Proof
end

