-- ==== Sys2Proof/Syntax.lean ====
section
/-!
DEFINITION. The operations and events of Harog, one constructor for each row of the opcode table: the instruction words of R82 to
R89 with the fields of their encodings, and the events of the device (95_what_each_step_holds.md) with the
parameters that say where an event acts or what it brings from outside.
-/
namespace Sys2Proof

/-- An operation or event. The fields of an instruction are those of its encoding, in the order of the word from bit 24 down;
operand codes stay codes here and are resolved by Machine/Operands.lean. -/
inductive Instr where
  /-- NOP (R310). -/
  | nop
  /-- BRA (R310). -/
  | bra (o : BitVec 25)
  /-- BZ (R311). -/
  | bz (a : BitVec 8) (o : BitVec 17)
  /-- BNZ (R311). -/
  | bnz (a : BitVec 8) (o : BitVec 17)
  /-- BRX (R312). -/
  | brx (a : BitVec 8)
  /-- CALL (R313). -/
  | call (d : BitVec 8) (i : BitVec 17)
  /-- RET (R312). -/
  | ret (a : BitVec 8)
  /-- EXIT (R315). -/
  | exit
  /-- YIELD (R315). -/
  | yield
  /-- BRK (R316). -/
  | brk (c : BitVec 16)
  /-- SIGNAL (R317). -/
  | signal (a : BitVec 8) (n : BitVec 9)
  /-- CLOCK (R318). -/
  | clock (d : BitVec 8)
  /-- SGET (R69). -/
  | sget (d : BitVec 8) (s : BitVec 10)
  /-- SSET (R69). -/
  | sset (r : BitVec 8) (s : BitVec 10)
  /-- XIMM_L (R59). -/
  | ximmL (i : BitVec 16)
  /-- XIMM_H (R59). -/
  | ximmH (i : BitVec 16)
  /-- LIFE (R60). -/
  | life (a : BitVec 8) (b : BitVec 16)
  /-- HOLD (R61). -/
  | hold (c : BitVec 3) (m : BitVec 3)
  /-- HOLD_REL (R61). -/
  | holdRel
  /-- SCALE (R62). -/
  | scale (b : BitVec 8) (a : BitVec 8)
  /-- MOD (R63). -/
  | mod (h : BitVec 1) (a : BitVec 1) (b : BitVec 4) (c : BitVec 4) (s : BitVec 3) (t : BitVec 1) (r : BitVec 3)
  /-- SCHED (R64). -/
  | sched (d : BitVec 4)
  /-- SCHED_YP (R64). -/
  | schedYp (d : BitVec 4)
  /-- MOV (R65). -/
  | mov (d : BitVec 8) (a : BitVec 8)
  /-- MOVI (R66). -/
  | movi (d : BitVec 8) (i : BitVec 17)
  /-- MOVG (R65). -/
  | movg (d : BitVec 8) (a : BitVec 8)
  /-- SHAPE (R65). -/
  | shape (d : BitVec 8) (a : BitVec 8)
  /-- SPILL (R68). -/
  | spill (a : BitVec 8) (s : BitVec 9)
  /-- RELOAD (R68). -/
  | reload (d : BitVec 8) (s : BitVec 9)
  /-- IADD (R120). -/
  | iadd (d : BitVec 8) (a : BitVec 8) (b : BitVec 8) (v : BitVec 1)
  /-- ISUB (R120). -/
  | isub (d : BitVec 8) (a : BitVec 8) (b : BitVec 8) (v : BitVec 1)
  /-- IMUL (R120). -/
  | imul (d : BitVec 8) (a : BitVec 8) (b : BitVec 8) (v : BitVec 1)
  /-- IMULH (R120). -/
  | imulh (d : BitVec 8) (a : BitVec 8) (b : BitVec 8) (v : BitVec 1)
  /-- IMAC (R120). -/
  | imac (d : BitVec 8) (a : BitVec 8) (b : BitVec 8) (v : BitVec 1)
  /-- IADDC_CO (R121). -/
  | iaddcCo (d : BitVec 8) (a : BitVec 8) (b : BitVec 8)
  /-- IADDC_CI (R121). -/
  | iaddcCi (d : BitVec 8) (a : BitVec 8) (b : BitVec 8)
  /-- LEA (R122). -/
  | lea (d : BitVec 8) (a : BitVec 8) (b : BitVec 8) (v : BitVec 1)
  /-- IADDI (R120). -/
  | iaddi (d : BitVec 8) (a : BitVec 8) (i : BitVec 9)
  /-- ISHL (R123). -/
  | ishl (d : BitVec 8) (a : BitVec 8) (b : BitVec 8)
  /-- ISHR (R123). -/
  | ishr (d : BitVec 8) (a : BitVec 8) (b : BitVec 8) (v : BitVec 1)
  /-- AND (R124). -/
  | and (d : BitVec 8) (a : BitVec 8) (b : BitVec 8)
  /-- OR (R124). -/
  | or (d : BitVec 8) (a : BitVec 8) (b : BitVec 8)
  /-- XOR (R124). -/
  | xor (d : BitVec 8) (a : BitVec 8) (b : BitVec 8)
  /-- ANDN (R124). -/
  | andn (d : BitVec 8) (a : BitVec 8) (b : BitVec 8)
  /-- LOGI (R124). -/
  | logi (d : BitVec 8) (a : BitVec 8) (f : BitVec 2) (i : BitVec 7)
  /-- SHI (R123). -/
  | shi (d : BitVec 8) (a : BitVec 8) (k : BitVec 2) (n : BitVec 5)
  /-- IMIN (R125). -/
  | imin (d : BitVec 8) (a : BitVec 8) (b : BitVec 8) (v : BitVec 1)
  /-- IMAX (R125). -/
  | imax (d : BitVec 8) (a : BitVec 8) (b : BitVec 8) (v : BitVec 1)
  /-- ICMP (R125). -/
  | icmp (d : BitVec 8) (a : BitVec 8) (b : BitVec 8) (v : BitVec 1)
  /-- SEL (R125). -/
  | sel (d : BitVec 8) (a : BitVec 8) (b : BitVec 8)
  /-- BFE (R126). -/
  | bfe (d : BitVec 8) (a : BitVec 8) (b : BitVec 8) (v : BitVec 1)
  /-- BFI (R126). -/
  | bfi (d : BitVec 8) (a : BitVec 8) (b : BitVec 8)
  /-- IUNA_POPC (R127). -/
  | iunaPopc (d : BitVec 8) (a : BitVec 8)
  /-- IUNA_CLZ (R127). -/
  | iunaClz (d : BitVec 8) (a : BitVec 8)
  /-- IUNA_BREV (R127). -/
  | iunaBrev (d : BitVec 8) (a : BitVec 8)
  /-- IUNA_IABS (R127). -/
  | iunaIabs (d : BitVec 8) (a : BitVec 8)
  /-- IUNA_INEG (R127). -/
  | iunaIneg (d : BitVec 8) (a : BitVec 8)
  /-- LGET_IDX (R130). -/
  | lgetIdx (d : BitVec 8) (a : BitVec 8) (b : BitVec 8)
  /-- LGET_ROT (R130). -/
  | lgetRot (d : BitVec 8) (a : BitVec 8) (b : BitVec 8)
  /-- POLL_EVERY (R131). -/
  | pollEvery (d : BitVec 8) (a : BitVec 8)
  /-- POLL_SOME (R131). -/
  | pollSome (d : BitVec 8) (a : BitVec 8)
  /-- POLL_MASK (R131). -/
  | pollMask (d : BitVec 8) (a : BitVec 8)
  /-- POLL_SAME (R131). -/
  | pollSame (d : BitVec 8) (a : BitVec 8)
  /-- POLL_COUNT (R131). -/
  | pollCount (d : BitVec 8) (a : BitVec 8)
  /-- WRED_ADD (R132). -/
  | wredAdd (d : BitVec 8) (a : BitVec 8)
  /-- WRED_MIN (R132). -/
  | wredMin (d : BitVec 8) (a : BitVec 8) (v : BitVec 1)
  /-- WRED_MAX (R132). -/
  | wredMax (d : BitVec 8) (a : BitVec 8) (v : BitVec 1)
  /-- WRED_AND (R132). -/
  | wredAnd (d : BitVec 8) (a : BitVec 8)
  /-- WRED_OR (R132). -/
  | wredOr (d : BitVec 8) (a : BitVec 8)
  /-- WRED_XOR (R132). -/
  | wredXor (d : BitVec 8) (a : BitVec 8)
  /-- WREDF_FADD (R133). -/
  | wredfFadd (d : BitVec 8) (a : BitVec 8)
  /-- WREDF_FMIN (R133). -/
  | wredfFmin (d : BitVec 8) (a : BitVec 8)
  /-- WREDF_FMAX (R133). -/
  | wredfFmax (d : BitVec 8) (a : BitVec 8)
  /-- SCAN_IADD (R134). -/
  | scanIadd (d : BitVec 8) (a : BitVec 8) (v : BitVec 1)
  /-- SCAN_FADD (R134). -/
  | scanFadd (d : BitVec 8) (a : BitVec 8) (v : BitVec 1)
  /-- SCAN_IMAX_S (R134). -/
  | scanImaxS (d : BitVec 8) (a : BitVec 8) (v : BitVec 1)
  /-- SCAN_IMAX_N (R134). -/
  | scanImaxN (d : BitVec 8) (a : BitVec 8) (v : BitVec 1)
  /-- SCAN_IMIN_S (R134). -/
  | scanIminS (d : BitVec 8) (a : BitVec 8) (v : BitVec 1)
  /-- SCAN_IMIN_N (R134). -/
  | scanIminN (d : BitVec 8) (a : BitVec 8) (v : BitVec 1)
  /-- SCAN_OR (R134). -/
  | scanOr (d : BitVec 8) (a : BitVec 8) (v : BitVec 1)
  /-- KEYM_PEER (R135). -/
  | keymPeer (d : BitVec 8) (a : BitVec 8) (f : BitVec 1)
  /-- KEYM_WHOLE (R135). -/
  | keymWhole (d : BitVec 8) (a : BitVec 8) (f : BitVec 1)
  /-- TILE (R129). -/
  | tile (s : BitVec 9)
  /-- HEAD_FLAG (R136). -/
  | headFlag (d : BitVec 8)
  /-- HEAD_NUM (R136). -/
  | headNum (d : BitVec 8)
  /-- FADD (R139). -/
  | fadd (d : BitVec 8) (a : BitVec 8) (b : BitVec 8)
  /-- FSUB (R139). -/
  | fsub (d : BitVec 8) (a : BitVec 8) (b : BitVec 8)
  /-- FMUL (R139). -/
  | fmul (d : BitVec 8) (a : BitVec 8) (b : BitVec 8)
  /-- FMA_A (R139). -/
  | fmaA (d : BitVec 8) (a : BitVec 8) (b : BitVec 8)
  /-- FMA_L (R139). -/
  | fmaL (d : BitVec 8) (a : BitVec 8) (b : BitVec 8)
  /-- FMIN (R140). -/
  | fmin (d : BitVec 8) (a : BitVec 8) (b : BitVec 8)
  /-- FMAX (R140). -/
  | fmax (d : BitVec 8) (a : BitVec 8) (b : BitVec 8)
  /-- FCMP (R141). -/
  | fcmp (d : BitVec 8) (a : BitVec 8) (b : BitVec 8) (v : BitVec 1)
  /-- FCLASS (R142). -/
  | fclass (d : BitVec 8) (a : BitVec 8)
  /-- FRND (R143). -/
  | frnd (d : BitVec 8) (a : BitVec 8)
  /-- CVT (R145). -/
  | cvt (d : BitVec 8) (a : BitVec 8) (t : BitVec 4) (f : BitVec 4)
  /-- HADD2 (R146). -/
  | hadd2 (d : BitVec 8) (a : BitVec 8) (b : BitVec 8) (v : BitVec 1)
  /-- HMUL2 (R146). -/
  | hmul2 (d : BitVec 8) (a : BitVec 8) (b : BitVec 8) (v : BitVec 1)
  /-- HFMA2 (R146). -/
  | hfma2 (d : BitVec 8) (a : BitVec 8) (b : BitVec 8) (v : BitVec 1)
  /-- FUNA_FABS (R144). -/
  | funaFabs (d : BitVec 8) (a : BitVec 8)
  /-- FUNA_FNEG (R144). -/
  | funaFneg (d : BitVec 8) (a : BitVec 8)
  /-- DOT2 (R147). -/
  | dot2 (d : BitVec 3) (a : BitVec 8) (b : BitVec 8) (v : BitVec 1)
  /-- DOT8 (R150). -/
  | dot8 (s : BitVec 2) (d : BitVec 3) (a : BitVec 8) (b : BitVec 8) (v : BitVec 1)
  /-- DOT4 (R150). -/
  | dot4 (s : BitVec 2) (d : BitVec 3) (a : BitVec 8) (b : BitVec 8) (v : BitVec 1)
  /-- SFU_RCP (R151). -/
  | sfuRcp (d : BitVec 8) (a : BitVec 8)
  /-- SFU_RSQ (R151). -/
  | sfuRsq (d : BitVec 8) (a : BitVec 8)
  /-- SFU_SQRT (R151). -/
  | sfuSqrt (d : BitVec 8) (a : BitVec 8)
  /-- SFU_EXP2 (R151). -/
  | sfuExp2 (d : BitVec 8) (a : BitVec 8)
  /-- SFU_LOG2 (R151). -/
  | sfuLog2 (d : BitVec 8) (a : BitVec 8)
  /-- SFU_SINP (R151). -/
  | sfuSinp (d : BitVec 8) (a : BitVec 8)
  /-- SFU_COSP (R151). -/
  | sfuCosp (d : BitVec 8) (a : BitVec 8)
  /-- SFU_TANH (R151). -/
  | sfuTanh (d : BitVec 8) (a : BitVec 8)
  /-- EXS (R153). -/
  | exs (d : BitVec 8) (a : BitVec 8) (b : BitVec 8)
  /-- SMXA (R155). -/
  | smxa (d : BitVec 8) (a : BitVec 8) (b : BitVec 8)
  /-- SMXM (R156). -/
  | smxm (d : BitVec 8) (a : BitVec 8)
  /-- LD (R218). -/
  | ld (d : BitVec 8) (a : BitVec 8) (p : BitVec 2) (s : BitVec 3) (o : BitVec 2) (x : BitVec 1) (c : BitVec 1)
  /-- ST (R218). -/
  | st (d : BitVec 8) (a : BitVec 8) (p : BitVec 2) (s : BitVec 3) (o : BitVec 2) (c : BitVec 1)
  /-- LDP (R220). -/
  | ldp (d : BitVec 8) (a : BitVec 8) (s : BitVec 3) (c : BitVec 1)
  /-- STP (R220). -/
  | stp (d : BitVec 8) (a : BitVec 8) (s : BitVec 3) (c : BitVec 1)
  /-- ATOM (R227). -/
  | atom (v : BitVec 8) (a : BitVec 8) (p : BitVec 2) (o : BitVec 4) (r : BitVec 2) (w : BitVec 1)
  /-- ATOMN (R227). -/
  | atomn (v : BitVec 8) (a : BitVec 8) (p : BitVec 2) (o : BitVec 4) (r : BitVec 2) (w : BitVec 1)
  /-- FENCE (R229). -/
  | fence (k : BitVec 2) (s : BitVec 3)
  /-- STC (R284). -/
  | stc (d : BitVec 8) (a : BitVec 8) (p : BitVec 2) (o : BitVec 2)
  /-- WAITV (R295). -/
  | waitv (v : BitVec 8) (a : BitVec 8) (p : BitVec 2) (c : BitVec 4) (o : BitVec 2)
  /-- SMAP (R231). -/
  | smap (r : BitVec 8) (a : BitVec 8) (t : BitVec 6) (m : BitVec 3)
  /-- SUNMAP (R232). -/
  | sunmap (l : BitVec 1) (e : BitVec 5)
  /-- SFLUSH (R232). -/
  | sflush (l : BitVec 1) (e : BitVec 5)
  /-- XCOPY_G2S (R244). -/
  | xcopyG2s (r : BitVec 8) (a : BitVec 8) (t : BitVec 6)
  /-- XCOPY_S2G (R244). -/
  | xcopyS2g (r : BitVec 8) (a : BitVec 8) (t : BitVec 6)
  /-- XCOPY_S2C (R244). -/
  | xcopyS2c (r : BitVec 8) (a : BitVec 8) (t : BitVec 6)
  /-- XCOPY_MCAST (R211). -/
  | xcopyMcast (r : BitVec 8) (a : BitVec 8) (t : BitVec 6)
  /-- XCOPY_REMOTE (R247). -/
  | xcopyRemote (r : BitVec 8) (a : BitVec 8) (t : BitVec 6)
  /-- XLOADW (R181). -/
  | xloadw (r : BitVec 8) (a : BitVec 8) (t : BitVec 6) (s : BitVec 3)
  /-- RFENCE (R242). -/
  | rfence
  /-- TWAIT_ALL (R253). -/
  | twaitAll (d : BitVec 8) (a : BitVec 8)
  /-- TWAIT_ANY (R253). -/
  | twaitAny (d : BitVec 8) (a : BitVec 8)
  /-- TFIRST (R253). -/
  | tfirst (d : BitVec 8) (a : BitVec 8)
  /-- TACK (R254). -/
  | tack (a : BitVec 8)
  /-- MLOOP (R166). -/
  | mloop (n : BitVec 4) (f : BitVec 4) (a : BitVec 8) (c : BitVec 8) (m : BitVec 1)
  /-- MZERO (R175). -/
  | mzero (n : BitVec 4)
  /-- MSCALE (R176). -/
  | mscale (n : BitVec 4) (a : BitVec 8)
  /-- MOUT (R179). -/
  | mout (n : BitVec 4) (f : BitVec 4) (a : BitVec 8) (c : BitVec 8)
  /-- MGET (R177). -/
  | mget (d : BitVec 8) (a : BitVec 8) (s : BitVec 4)
  /-- MPUT (R178). -/
  | mput (r : BitVec 8) (a : BitVec 8) (s : BitVec 4)
  /-- MPERTURB (R182). -/
  | mperturb (a : BitVec 8) (b : BitVec 8)
  /-- BAR_ARRIVE (R331). -/
  | barArrive (i : BitVec 4)
  /-- BAR_WAIT (R331). -/
  | barWait (i : BitVec 4)
  /-- BAR_SYNC (R331). -/
  | barSync (i : BitVec 4)
  /-- BAR_EXPECT (R331). -/
  | barExpect (a : BitVec 8) (i : BitVec 4)
  /-- GBAR (R332). -/
  | gbar
  /-- SPAWN (R335). -/
  | spawn (d : BitVec 8) (a : BitVec 8)
  /-- JOINC (R336). -/
  | joinc (d : BitVec 8) (a : BitVec 8)
  /-- RGN (R381). -/
  | rgn
  /-- COMMIT_X (R383). -/
  | commitX
  /-- COMMIT_B (R384). -/
  | commitB (o : BitVec 17)
  /-- COMMIT_R (R385). -/
  | commitR (o : BitVec 17)
  /-- COMMIT_P (R391). -/
  | commitP
  /-- PTEST (R392). -/
  | ptest (d : BitVec 8) (a : BitVec 8)
  /-- PINFO_CAUSE (R392). -/
  | pinfoCause (d : BitVec 8) (a : BitVec 8)
  /-- PINFO_ENTRY (R392). -/
  | pinfoEntry (d : BitVec 8) (a : BitVec 8)
  /-- PFILL (R392). -/
  | pfill (d : BitVec 8) (a : BitVec 8)
  /-- PSET (R392). -/
  | pset (d : BitVec 8) (a : BitVec 8)
  /-- SUPPRESSED_WORD (R78). -/
  | suppressedWord (k : Suppression)
  /-- SWITCHED_ISSUE (R299). -/
  | switchedIssue
  /-- RESULT_ARRIVAL (R53). -/
  | resultArrival (res : Nat)
  /-- INSTRUCTION_FETCH (R198). -/
  | instructionFetch
  /-- FETCH_RETRY (R198). -/
  | fetchRetry
  /-- TRANSLATION_WALK (R195). -/
  | translationWalk (tag space : Nat) (off : DWord) (write : Bool)
  /-- STORE_DRAIN (R236). -/
  | storeDrain (core k : Nat)
  /-- WRITE_APPLY (R263). -/
  | writeApply (die k : Nat)
  /-- STASH_LINE_FILL (R207). -/
  | stashLineFill (wg entry line : Nat)
  /-- SMAP_EXECUTE (R231). -/
  | smapExecute (job : Nat)
  /-- COPY_RECORD_FETCH (R240). -/
  | copyRecordFetch (job : Nat)
  /-- COPY_SECTOR (R245). -/
  | copySector (job : Nat)
  /-- COPY_TAG_DONE (R245). -/
  | copyTagDone (job : Nat)
  /-- MLOOP_STEP (R171). -/
  | mloopStep (job : Nat)
  /-- MLOOP_COMPLETE (R173). -/
  | mloopComplete (job : Nat)
  /-- MATRIX_TAG_DONE (R173). -/
  | matrixTagDone (job : Nat)
  /-- SLOT_ACCESS (R175). -/
  | slotAccess (job : Nat)
  /-- MOUT_EXECUTE (R180). -/
  | moutExecute (job : Nat)
  /-- WAITV_TEST (R295). -/
  | waitvTest (w : WarpRef)
  /-- WAITV_TIMEOUT (R295). -/
  | waitvTimeout (w : WarpRef)
  /-- COMMIT_R_REPLAY (R385). -/
  | commitRReplay (w : WarpRef)
  /-- COMMIT_P_MATCH (R391). -/
  | commitPMatch (w : WarpRef)
  /-- COMMIT_P_TIMEOUT (R391). -/
  | commitPTimeout (w : WarpRef)
  /-- STC_FLAG_SEND (R284). -/
  | stcFlagSend (job : Nat)
  /-- COUNTED_WRITE_ARRIVAL (R282). -/
  | countedWriteArrival (p : WritePacket)
  /-- FLAG_ARRIVAL (R285). -/
  | flagArrival (p : FlagPacket)
  /-- FLAG_WRITE_RETRY (R286). -/
  | flagWriteRetry (job : Nat)
  /-- FLAG_HOLD_EXPIRY (R288). -/
  | flagHoldExpiry (job : Nat)
  /-- LOSS_NOTICE_ARRIVAL (R289). -/
  | lossNoticeArrival (n : LossNotice)
  /-- PACKET_AGE_EXPIRY (R277). -/
  | packetAgeExpiry (job : Nat)
  /-- REMOTE_ACCESS_ARRIVAL (R266). -/
  | remoteAccessArrival (r : RemoteRequest)
  /-- REMOTE_RESPONSE_ARRIVAL (R293). -/
  | remoteResponseArrival (req : Nat) (r : Reply)
  /-- REMOTE_RESPONSE_TIMEOUT (R293). -/
  | remoteResponseTimeout (req : Nat)
  /-- HOST_RESPONSE_ARRIVAL (R269). -/
  | hostResponseArrival (req : Nat) (r : HostReply)
  /-- LAUNCH_PACKET_TAKE (R323). -/
  | launchPacketTake (q : Nat)
  /-- LAUNCH_READ_RETRY (R417). -/
  | launchReadRetry (q : Nat)
  /-- SIZE_CLASS_SELECT (R37). -/
  | sizeClassSelect (q : Nat)
  /-- LAUNCH_ADMIT (R328). -/
  | launchAdmit (q : Nat)
  /-- CLUSTER_PLACE (R27). -/
  | clusterPlace (launch die cluster : Nat)
  /-- WORKGROUP_END (R24). -/
  | workgroupEnd (wg : Nat)
  /-- LAUNCH_COMPLETE (R327). -/
  | launchComplete (launch : Nat)
  /-- TASK_START (R333). -/
  | taskStart (w : WarpRef)
  /-- TASK_RING_REFILL (R333). -/
  | taskRingRefill (launch core : Nat)
  /-- TASK_AUTOJOIN (R40). -/
  | taskAutojoin (w : WarpRef)
  /-- TASK_AUTOJOIN_RETRY (R336). -/
  | taskAutojoinRetry (w : WarpRef)
  /-- PREEMPT_DECISION (R329, R338); `asker` is the function that a request of the host or the firmware stands for. -/
  | preemptDecision (ask : PreemptAsk)
  /-- DRAIN_BOUND_EXPIRY (R338). -/
  | drainBoundExpiry (cluster : Nat)
  /-- WARP_SAVE (R57). -/
  | warpSave (w : WarpRef)
  /-- UNIT_SAVE (R339). -/
  | unitSave (cluster : Nat)
  /-- UNIT_FLUSH (R338). -/
  | unitFlush (cluster : Nat)
  /-- UNIT_RESUME (R73). -/
  | unitResume (cluster die hc : Nat)
  /-- PAGE_HOME_MOVE (R270). -/
  | pageHomeMove (tag : Nat) (off : DWord) (frame : Nat)
  /-- SQUEEGEE_SCRUB (R395). -/
  | squeegeeScrub (sector : Nat)
  /-- CONTEXT_KILL (R367). -/
  | contextKill (tag : Nat) (cause : Nat)
  /-- CENSUS_UPDATE (R402). -/
  | censusUpdate
  /-- RESOURCE_FAILURE (R401). -/
  | resourceFailure (r : Resource)
  /-- PLANE_FAILURE (R401). -/
  | planeFailure (plane : Nat)
  /-- THERMAL_THROTTLE (R403). -/
  | thermalThrottle
  /-- THERMAL_TRIP (R403). -/
  | thermalTrip
  /-- COLD_RESET (R403). -/
  | coldReset
  /-- PORT_LINK_DOWN (R362); `cxl` is the mode in which the link comes up again (R13; log 63). -/
  | portLinkDown (link : LinkDown)
  /-- QWRITE (R321). -/
  | qwrite (f q : Nat) (v : Word)
  /-- QCTL_EN_SET (R320). -/
  | qctlEnSet (f q : Nat) (v : Word)
  /-- QCTL_EN_CLEAR (R321). -/
  | qctlEnClear (f q : Nat) (v : Word)
  /-- QCTL_DRAIN (R341). -/
  | qctlDrain (f q : Nat) (v : Word)
  /-- FLR (R369). -/
  | flr (f : Nat)
  /-- CTLSEM_ACQ (R362). -/
  | ctlsemAcq (f : Nat)
  /-- CTLSEM_REL (R362). -/
  | ctlsemRel (f : Nat)
  /-- MBDOOR (R357). -/
  | mbdoor (f : Nat)
  /-- CREATE (R358). -/
  | create (f : Nat) (a : List Word)
  /-- DESTROY (R358). -/
  | destroy (f : Nat) (a : List Word)
  /-- SETROOT (R358). -/
  | setroot (f : Nat) (a : List Word)
  /-- INVAL (R197). -/
  | inval (f : Nat) (a : List Word)
  /-- GRANT (R358). -/
  | grant (f : Nat) (a : List Word)
  /-- SHARE (R358). -/
  | share (f : Nat) (a : List Word)
  /-- CHANNEL (R279). -/
  | channel (f : Nat) (a : List Word)
  /-- VFASSIGN (R358). -/
  | vfassign (f : Nat) (a : List Word)
  /-- ISOLATE (R360). -/
  | isolate (f : Nat) (a : List Word)
  /-- FWUPDATE (R365). -/
  | fwupdate (f : Nat) (a : List Word)
  /-- DRAIN (R341). -/
  | drain (f : Nat) (a : List Word)
  /-- RESET (R403). -/
  | reset (f : Nat) (a : List Word)
  /-- ECTR_WRITE (R325). -/
  | ectrWrite (f tag n : Nat) (v : Word)
  /-- SRDONE_WRITE (R398). -/
  | srdoneWrite (f tag : Nat) (v : Word)
  /-- INJCTL_ARM (R400). -/
  | injctlArm (f tag : Nat) (v : Word)
  /-- INJCTL_DISARM (R400). -/
  | injctlDisarm (f tag : Nat) (v : Word)
  /-- REGISTER_WRITE (R8). -/
  | registerWrite (f off : Nat) (v : Word)
  /-- BAR2_READ (R355). -/
  | bar2Read (f : Nat) (off : DWord) (size : Nat)
  /-- BAR2_WRITE (R355). -/
  | bar2Write (f : Nat) (off : DWord) (data : List Byte)
  /-- HOST_CXL_MEM_ACCESS (R268). -/
  | hostCxlMemAccess (port : Nat) (off : DWord) (size : Nat) (data : Option (List Byte))
  /-- CENSUS_READ (R402). -/
  | censusRead (off len : Nat)
  /-- GET_VERSION (R366). -/
  | getVersion
  /-- GET_CAPABILITIES (R366). -/
  | getCapabilities
  /-- NEGOTIATE_ALGORITHMS (R366). -/
  | negotiateAlgorithms
  /-- GET_DIGESTS (R366). -/
  | getDigests
  /-- GET_CERTIFICATE (R366). -/
  | getCertificate (off len : Nat)
  /-- CHALLENGE (R366). -/
  | challenge (nonce : List Byte)
  /-- GET_MEASUREMENTS (R366). -/
  | getMeasurements (index : Nat) (nonce : List Byte)
  /-- UNSUPPORTED_REQUEST (R366). -/
  | unsupportedRequest (code : Byte)
  /-- PLDM_SENSOR_READ (R403). -/
  | pldmSensorRead (sensor : Nat)
  /-- FRU_EEPROM_READ (R18). -/
  | fruEepromRead (off len : Nat)
  /-- VF_ENABLE (R353). -/
  | vfEnable (port : Nat) (on : Bool)
  /-- POWER_LOSS (R18). -/
  | powerLoss
  /-- BACK_INVALIDATE_RESPONSE (R268). -/
  | backInvalidateResponse (job : Nat)
  /-- GLOBAL_OBSERVATION_RESPONSE (R268). -/
  | globalObservationResponse (req : Nat) (line : Option (List Byte))
  deriving DecidableEq, Repr, Inhabited

end Sys2Proof
end

