-- ==== Sys2Proof/WellFormed.lean ====
section
/-!
DEFINITION. The static checks on an instruction: operand classes (R76), reserved sub-field values (R82 to R89) and the value
ranges that the instruction entries give. A word that decodes to an ill-formed instruction is suppressed (R78; a hint R58).
Checks that depend on the state of the machine are made by the meanings.
-/
namespace Sys2Proof

/-- Single source: 0x00 to 0xFD (R76). -/
def srcOk (c : Code) : Bool := decide (c.toNat ≤ 0xFD)
/-- Single destination: 0x00 to 0xFB (R76). -/
def dstOk (c : Code) : Bool := decide (c.toNat ≤ 0xFB)
/-- Pair (R76). -/
def pairOk (c : Code) : Bool := (decide (c.toNat ≤ 0xF6) && c.toNat % 2 == 0) || c == 0xFB#8
/-- Base of four (R76). -/
def base4Ok (c : Code) : Bool := decide (c.toNat ≤ 0xF4) && c.toNat % 4 == 0
/-- Quad (R76). -/
def quadOk (c : Code) : Bool := base4Ok c || c == 0xFB#8
/-- A scale operand named by SCALE (R62). -/
def scaleOk (c : Code) : Bool := srcOk c && c != 0xFB#8 && c != 0xFC#8
/-- The AOP field of MLOOP: a register, or a generated A (R88, R166). -/
def aopOk (c : Code) : Bool := decide (c.toNat ≤ 0xFA)
/-- The output formats of MOUT (R88). -/
def moutFmtOk (f : Nat) : Bool := decide (f ≤ 8) && f != 4
/-- The destination class of a load by SZ (R217). -/
def loadDstOk (sz : Nat) (c : Code) : Bool :=
  if sz ≤ 2 then dstOk c else if sz = 3 then pairOk c else if sz = 4 then quadOk c else false
/-- The source class of a store by SZ (R217). -/
def storeSrcOk (sz : Nat) (c : Code) : Bool :=
  if sz ≤ 2 then srcOk c else if sz = 3 then pairOk c else if sz = 4 then quadOk c else false
/-- AOP 15, and AOP 11 to 13 with W = 1, are reserved (R87). -/
def atomOk (aop : Nat) (w : BitVec 1) : Bool :=
  decide (aop ≤ 14) && !(w == 1#1 && decide (11 ≤ aop) && decide (aop ≤ 13))
/-- VAL of ATOM: a destination that is also read (R87, R225). -/
def atomDstOk (aop : Nat) (w : BitVec 1) (c : Code) : Bool :=
  if aop = 14 then (if w == 0#1 then pairOk c else quadOk c) else (if w == 0#1 then dstOk c else pairOk c)
/-- VAL of ATOMN: read only (R87). -/
def atomSrcOk (aop : Nat) (w : BitVec 1) (c : Code) : Bool :=
  if aop = 14 then (if w == 0#1 then pairOk c else quadOk c) else (if w == 0#1 then srcOk c else pairOk c)
/-- Launch coordinate registers that are assigned (R41). -/
def coordOk (n : Nat) : Bool :=
  decide (n ≤ 9) || (decide (0x10 ≤ n) && decide (n ≤ 0x19)) || (decide (0x20 ≤ n) && decide (n ≤ 0x25))
    || (decide (0x28 ≤ n) && decide (n ≤ 0x2B)) || n == 0x30 || n == 0x31
/-- Special registers that are assigned (R41, R70). -/
def specialOk (n : Nat) : Bool := coordOk n || (decide (0x40 ≤ n) && decide (n ≤ 0x48))
/-- Special registers that SSET may name (R69, R70). -/
def specialRw (n : Nat) : Bool := decide (0x40 ≤ n) && decide (n ≤ 0x43)

/-- The static checks. Events carry no encoding and pass. -/
def Instr.wf : Instr → Bool
  | .nop => true
  | .bra _ => true
  | .bz a _ => srcOk a
  | .bnz a _ => srcOk a
  | .brx a => pairOk a
  | .call d _ => pairOk d && d != 0xFB#8
  | .ret a => pairOk a
  | .exit => true
  | .yield => true
  | .brk _ => true
  | .signal a n => srcOk a && n.toNat < 64
  | .clock d => pairOk d
  | .sget d s => dstOk d && specialOk s.toNat
  | .sset r s => srcOk r && specialRw s.toNat
  | .ximmL _ => true
  | .ximmH _ => true
  | .life _ _ => true
  | .hold c _ => c != 0#3
  | .holdRel => true
  | .scale b a => scaleOk a && scaleOk b
  | .mod _ _ _ _ _ _ r => r.toNat <= 5
  | .sched _ => true
  | .schedYp _ => true
  | .mov d a => dstOk d && srcOk a
  | .movi d _ => dstOk d
  | .movg d a => dstOk d && srcOk a
  | .shape d a => dstOk d && srcOk a
  | .spill a s => srcOk a && s.toNat < 64
  | .reload d s => dstOk d && s.toNat < 64
  | .iadd d a b _ => dstOk d && srcOk a && srcOk b
  | .isub d a b _ => dstOk d && srcOk a && srcOk b
  | .imul d a b _ => dstOk d && srcOk a && srcOk b
  | .imulh d a b _ => dstOk d && srcOk a && srcOk b
  | .imac d a b _ => dstOk d && srcOk a && srcOk b
  | .iaddcCo d a b => dstOk d && srcOk a && srcOk b
  | .iaddcCi d a b => dstOk d && srcOk a && srcOk b
  | .lea d a b _ => pairOk d && pairOk a && srcOk b
  | .iaddi d a _ => dstOk d && srcOk a
  | .ishl d a b => dstOk d && srcOk a && srcOk b
  | .ishr d a b _ => dstOk d && srcOk a && srcOk b
  | .and d a b => dstOk d && srcOk a && srcOk b
  | .or d a b => dstOk d && srcOk a && srcOk b
  | .xor d a b => dstOk d && srcOk a && srcOk b
  | .andn d a b => dstOk d && srcOk a && srcOk b
  | .logi d a _ _ => dstOk d && srcOk a
  | .shi d a _ _ => dstOk d && srcOk a
  | .imin d a b _ => dstOk d && srcOk a && srcOk b
  | .imax d a b _ => dstOk d && srcOk a && srcOk b
  | .icmp d a b _ => dstOk d && srcOk a && srcOk b
  | .sel d a b => dstOk d && srcOk a && srcOk b
  | .bfe d a b _ => dstOk d && srcOk a && srcOk b
  | .bfi d a b => dstOk d && srcOk a && srcOk b
  | .iunaPopc d a => dstOk d && srcOk a
  | .iunaClz d a => dstOk d && srcOk a
  | .iunaBrev d a => dstOk d && srcOk a
  | .iunaIabs d a => dstOk d && srcOk a
  | .iunaIneg d a => dstOk d && srcOk a
  | .lgetIdx d a b => dstOk d && srcOk a && srcOk b
  | .lgetRot d a b => dstOk d && srcOk a && srcOk b
  | .pollEvery d a => dstOk d && srcOk a
  | .pollSome d a => dstOk d && srcOk a
  | .pollMask d a => dstOk d && srcOk a
  | .pollSame d a => dstOk d && srcOk a
  | .pollCount d a => dstOk d && srcOk a
  | .wredAdd d a => dstOk d && srcOk a
  | .wredMin d a _ => dstOk d && srcOk a
  | .wredMax d a _ => dstOk d && srcOk a
  | .wredAnd d a => dstOk d && srcOk a
  | .wredOr d a => dstOk d && srcOk a
  | .wredXor d a => dstOk d && srcOk a
  | .wredfFadd d a => dstOk d && srcOk a
  | .wredfFmin d a => dstOk d && srcOk a
  | .wredfFmax d a => dstOk d && srcOk a
  | .scanIadd d a _ => dstOk d && srcOk a
  | .scanFadd d a _ => dstOk d && srcOk a
  | .scanImaxS d a _ => dstOk d && srcOk a
  | .scanImaxN d a _ => dstOk d && srcOk a
  | .scanIminS d a _ => dstOk d && srcOk a
  | .scanIminN d a _ => dstOk d && srcOk a
  | .scanOr d a _ => dstOk d && srcOk a
  | .keymPeer d a _ => dstOk d && srcOk a
  | .keymWhole d a _ => dstOk d && srcOk a
  | .tile s => 1 <= s.toNat && s.toNat <= 5
  | .headFlag d => dstOk d
  | .headNum d => dstOk d
  | .fadd d a b => dstOk d && srcOk a && srcOk b
  | .fsub d a b => dstOk d && srcOk a && srcOk b
  | .fmul d a b => dstOk d && srcOk a && srcOk b
  | .fmaA d a b => dstOk d && srcOk a && srcOk b
  | .fmaL d a b => dstOk d && srcOk a && srcOk b
  | .fmin d a b => dstOk d && srcOk a && srcOk b
  | .fmax d a b => dstOk d && srcOk a && srcOk b
  | .fcmp d a b _ => dstOk d && srcOk a && srcOk b
  | .fclass d a => dstOk d && srcOk a
  | .frnd d a => dstOk d && srcOk a
  | .cvt d a t f => dstOk d && srcOk a && t.toNat < 12 && f.toNat < 12 && t != f
  | .hadd2 d a b _ => dstOk d && srcOk a && srcOk b
  | .hmul2 d a b _ => dstOk d && srcOk a && srcOk b
  | .hfma2 d a b _ => dstOk d && srcOk a && srcOk b
  | .funaFabs d a => dstOk d && srcOk a
  | .funaFneg d a => dstOk d && srcOk a
  | .dot2 _ a b _ => srcOk a && srcOk b
  | .dot8 _ _ a b _ => quadOk a && quadOk b
  | .dot4 _ _ a b _ => quadOk a && quadOk b
  | .sfuRcp d a => dstOk d && srcOk a
  | .sfuRsq d a => dstOk d && srcOk a
  | .sfuSqrt d a => dstOk d && srcOk a
  | .sfuExp2 d a => dstOk d && srcOk a
  | .sfuLog2 d a => dstOk d && srcOk a
  | .sfuSinp d a => dstOk d && srcOk a
  | .sfuCosp d a => dstOk d && srcOk a
  | .sfuTanh d a => dstOk d && srcOk a
  | .exs d a b => dstOk d && srcOk a && srcOk b
  | .smxa d a b => pairOk d && srcOk a && srcOk b
  | .smxm d a => pairOk d && pairOk a
  | .ld d a _ s o x _ => loadDstOk s.toNat d && pairOk a && o != 2#2 && (x == 0#1 || s.toNat <= 1)
  | .st d a _ s o _ => storeSrcOk s.toNat d && pairOk a && o != 2#2
  | .ldp d a s _ => 2 <= s.toNat && loadDstOk s.toNat d && srcOk a
  | .stp d a s _ => 2 <= s.toNat && storeSrcOk s.toNat d && srcOk a
  | .atom v a _ o _ w => atomOk o.toNat w && atomDstOk o.toNat w v && pairOk a
  | .atomn v a _ o r w => atomOk o.toNat w && atomSrcOk o.toNat w v && pairOk a && r != 1#2 && r != 3#2
  | .fence _ _ => true
  | .stc d a _ o => srcOk d && pairOk a && (o == 1#2 || o == 3#2)
  | .waitv v a _ c o => pairOk v && pairOk a && c.toNat <= 5 && o.toNat <= 1
  | .smap r a _ m => pairOk r && base4Ok a && m.toNat <= 1
  | .sunmap l e => l == 0#1 || e == 0#5
  | .sflush l e => l == 0#1 || e == 0#5
  | .xcopyG2s r a _ => pairOk r && base4Ok a
  | .xcopyS2g r a _ => pairOk r && base4Ok a
  | .xcopyS2c r a _ => pairOk r && base4Ok a
  | .xcopyMcast r a _ => pairOk r && base4Ok a
  | .xcopyRemote r a _ => pairOk r && base4Ok a
  | .xloadw r a _ _ => pairOk r && base4Ok a
  | .rfence => true
  | .twaitAll d a => dstOk d && pairOk a
  | .twaitAny d a => dstOk d && pairOk a
  | .tfirst d a => dstOk d && pairOk a
  | .tack a => pairOk a
  | .mloop _ f a c _ => f.toNat < 8 && aopOk a && base4Ok c
  | .mzero _ => true
  | .mscale _ a => pairOk a
  | .mout _ f a c => moutFmtOk f.toNat && srcOk a && base4Ok c
  | .mget d a _ => pairOk d && srcOk a
  | .mput r a _ => srcOk r && pairOk a
  | .mperturb a b => srcOk a && srcOk b
  | .barArrive _ => true
  | .barWait _ => true
  | .barSync _ => true
  | .barExpect a _ => srcOk a
  | .gbar => true
  | .spawn d a => dstOk d && pairOk a
  | .joinc d a => dstOk d && pairOk a
  | .rgn => true
  | .commitX => true
  | .commitB _ => true
  | .commitR _ => true
  | .commitP => true
  | .ptest d a => dstOk d && srcOk a
  | .pinfoCause d a => dstOk d && srcOk a
  | .pinfoEntry d a => dstOk d && srcOk a
  | .pfill d a => dstOk d && srcOk a
  | .pset d a => dstOk d && srcOk a
  | .suppressedWord _ => true
  | .switchedIssue => true
  | .resultArrival _ => true
  | .instructionFetch => true
  | .fetchRetry => true
  | .translationWalk _ _ _ _ => true
  | .storeDrain _ _ => true
  | .writeApply _ _ => true
  | .stashLineFill _ _ _ => true
  | .smapExecute _ => true
  | .copyRecordFetch _ => true
  | .copySector _ => true
  | .copyTagDone _ => true
  | .mloopStep _ => true
  | .mloopComplete _ => true
  | .matrixTagDone _ => true
  | .slotAccess _ => true
  | .moutExecute _ => true
  | .waitvTest _ => true
  | .waitvTimeout _ => true
  | .commitRReplay _ => true
  | .commitPMatch _ => true
  | .commitPTimeout _ => true
  | .stcFlagSend _ => true
  | .countedWriteArrival _ => true
  | .flagArrival _ => true
  | .flagWriteRetry _ => true
  | .flagHoldExpiry _ => true
  | .lossNoticeArrival _ => true
  | .packetAgeExpiry _ => true
  | .remoteAccessArrival _ => true
  | .remoteResponseArrival _ _ => true
  | .remoteResponseTimeout _ => true
  | .hostResponseArrival _ _ => true
  | .launchPacketTake _ => true
  | .launchReadRetry _ => true
  | .sizeClassSelect _ => true
  | .launchAdmit _ => true
  | .clusterPlace _ _ _ => true
  | .workgroupEnd _ => true
  | .launchComplete _ => true
  | .taskStart _ => true
  | .taskRingRefill _ _ => true
  | .taskAutojoin _ => true
  | .taskAutojoinRetry _ => true
  | .preemptDecision _ => true
  | .drainBoundExpiry _ => true
  | .warpSave _ => true
  | .unitSave _ => true
  | .unitFlush _ => true
  | .unitResume _ _ _ => true
  | .pageHomeMove _ _ _ => true
  | .squeegeeScrub _ => true
  | .contextKill _ _ => true
  | .censusUpdate => true
  | .resourceFailure _ => true
  | .planeFailure _ => true
  | .thermalThrottle => true
  | .thermalTrip => true
  | .coldReset => true
  | .portLinkDown _ => true
  | .qwrite _ _ _ => true
  | .qctlEnSet _ _ _ => true
  | .qctlEnClear _ _ _ => true
  | .qctlDrain _ _ _ => true
  | .flr _ => true
  | .ctlsemAcq _ => true
  | .ctlsemRel _ => true
  | .mbdoor _ => true
  | .create _ _ => true
  | .destroy _ _ => true
  | .setroot _ _ => true
  | .inval _ _ => true
  | .grant _ _ => true
  | .share _ _ => true
  | .channel _ _ => true
  | .vfassign _ _ => true
  | .isolate _ _ => true
  | .fwupdate _ _ => true
  | .drain _ _ => true
  | .reset _ _ => true
  | .ectrWrite _ _ _ _ => true
  | .srdoneWrite _ _ _ => true
  | .injctlArm _ _ _ => true
  | .injctlDisarm _ _ _ => true
  | .registerWrite _ _ _ => true
  | .bar2Read _ _ _ => true
  | .bar2Write _ _ _ => true
  | .hostCxlMemAccess _ _ _ _ => true
  | .censusRead _ _ => true
  | .getVersion => true
  | .getCapabilities => true
  | .negotiateAlgorithms => true
  | .getDigests => true
  | .getCertificate _ _ => true
  | .challenge _ => true
  | .getMeasurements _ _ => true
  | .unsupportedRequest _ => true
  | .pldmSensorRead _ => true
  | .fruEepromRead _ _ => true
  | .vfEnable _ _ => true
  | .powerLoss => true
  | .backInvalidateResponse _ => true
  | .globalObservationResponse _ _ => true

end Sys2Proof
end

