-- ==== Sys2Proof/Decode.lean ====
section
/-!
DEFINITION. Decoding and encoding of instruction words (R74 to R89). Decoding is total: a word is an instruction, or it is
suppressed under a name (R78, R79, R58). Operand classes and reserved values inside a row are checked by Instr.wf.
-/
namespace Sys2Proof

/-- Bits `lo + len - 1 : lo` of a word. -/
def fld (w : Word) (lo len : Nat) : BitVec len := BitVec.ofNat len (w.toNat / 2 ^ lo)

/-- What a word is: an instruction of the table, or a suppressed word and why. -/
inductive Decoded where
  | instr (i : Instr)
  | suppressed (k : Suppression)
  deriving DecidableEq, Repr

/-- The instruction a word encodes (R82 to R89), or the way it is suppressed (R78, R79, R58). -/
def decodeWord (w : Word) : Decoded :=
  match (fld w 25 7).toNat with
  | 1 =>
    if fld w 0 25 = 0#25 then .instr .nop
    else .suppressed .operand
  | 2 => .instr (.bra (fld w 0 25))
  | 3 => .instr (.bz (fld w 17 8) (fld w 0 17))
  | 4 => .instr (.bnz (fld w 17 8) (fld w 0 17))
  | 5 =>
    if fld w 17 8 = 0#8 ∧ fld w 0 9 = 0#9 then .instr (.brx (fld w 9 8))
    else .suppressed .operand
  | 6 => .instr (.call (fld w 17 8) (fld w 0 17))
  | 7 =>
    if fld w 17 8 = 0#8 ∧ fld w 0 9 = 0#9 then .instr (.ret (fld w 9 8))
    else .suppressed .operand
  | 8 =>
    if fld w 0 25 = 0#25 then .instr .exit
    else .suppressed .operand
  | 9 =>
    if fld w 0 25 = 0#25 then .instr .yield
    else .suppressed .operand
  | 10 =>
    if fld w 16 9 = 0#9 then .instr (.brk (fld w 0 16))
    else .suppressed .operand
  | 11 =>
    if fld w 17 8 = 0#8 then .instr (.signal (fld w 9 8) (fld w 0 9))
    else .suppressed .operand
  | 12 =>
    if fld w 0 17 = 0#17 then .instr (.clock (fld w 17 8))
    else .suppressed .operand
  | 13 =>
    if fld w 0 7 = 0#7 then .instr (.sget (fld w 17 8) (fld w 7 10))
    else .suppressed .operand
  | 14 =>
    if fld w 0 7 = 0#7 then .instr (.sset (fld w 17 8) (fld w 7 10))
    else .suppressed .operand
  | 16 =>
    if fld w 16 9 = 0#9 then .instr (.ximmL (fld w 0 16))
    else .suppressed .hint
  | 17 =>
    if fld w 16 9 = 0#9 then .instr (.ximmH (fld w 0 16))
    else .suppressed .hint
  | 18 =>
    if fld w 24 1 = 0#1 then .instr (.life (fld w 16 8) (fld w 0 16))
    else .suppressed .hint
  | 19 =>
    if fld w 6 19 = 0#19 then .instr (.hold (fld w 3 3) (fld w 0 3))
    else if fld w 0 25 = 64#25 then .instr .holdRel
    else .suppressed .hint
  | 20 =>
    if fld w 16 9 = 0#9 then .instr (.scale (fld w 8 8) (fld w 0 8))
    else .suppressed .hint
  | 21 =>
    if fld w 17 8 = 0#8 then .instr (.mod (fld w 16 1) (fld w 15 1) (fld w 11 4) (fld w 7 4) (fld w 4 3) (fld w 3 1) (fld w 0 3))
    else .suppressed .hint
  | 22 =>
    if fld w 5 20 = 0#20 ∧ fld w 0 1 = 0#1 then .instr (.sched (fld w 1 4))
    else if fld w 5 20 = 0#20 ∧ fld w 0 1 = 1#1 then .instr (.schedYp (fld w 1 4))
    else .suppressed .hint
  | 24 =>
    if fld w 0 9 = 0#9 then .instr (.mov (fld w 17 8) (fld w 9 8))
    else .suppressed .operand
  | 25 => .instr (.movi (fld w 17 8) (fld w 0 17))
  | 26 =>
    if fld w 0 9 = 0#9 then .instr (.movg (fld w 17 8) (fld w 9 8))
    else .suppressed .operand
  | 27 =>
    if fld w 0 9 = 0#9 then .instr (.shape (fld w 17 8) (fld w 9 8))
    else .suppressed .operand
  | 28 =>
    if fld w 17 8 = 0#8 then .instr (.spill (fld w 9 8) (fld w 0 9))
    else .suppressed .operand
  | 29 =>
    if fld w 9 8 = 0#8 then .instr (.reload (fld w 17 8) (fld w 0 9))
    else .suppressed .operand
  | 32 => .instr (.iadd (fld w 17 8) (fld w 9 8) (fld w 1 8) (fld w 0 1))
  | 33 => .instr (.isub (fld w 17 8) (fld w 9 8) (fld w 1 8) (fld w 0 1))
  | 34 => .instr (.imul (fld w 17 8) (fld w 9 8) (fld w 1 8) (fld w 0 1))
  | 35 => .instr (.imulh (fld w 17 8) (fld w 9 8) (fld w 1 8) (fld w 0 1))
  | 36 => .instr (.imac (fld w 17 8) (fld w 9 8) (fld w 1 8) (fld w 0 1))
  | 37 =>
    if fld w 0 1 = 0#1 then .instr (.iaddcCo (fld w 17 8) (fld w 9 8) (fld w 1 8))
    else if fld w 0 1 = 1#1 then .instr (.iaddcCi (fld w 17 8) (fld w 9 8) (fld w 1 8))
    else .suppressed .operand
  | 38 => .instr (.lea (fld w 17 8) (fld w 9 8) (fld w 1 8) (fld w 0 1))
  | 39 => .instr (.iaddi (fld w 17 8) (fld w 9 8) (fld w 0 9))
  | 40 =>
    if fld w 0 1 = 0#1 then .instr (.ishl (fld w 17 8) (fld w 9 8) (fld w 1 8))
    else .suppressed .operand
  | 41 => .instr (.ishr (fld w 17 8) (fld w 9 8) (fld w 1 8) (fld w 0 1))
  | 42 =>
    if fld w 0 1 = 0#1 then .instr (.and (fld w 17 8) (fld w 9 8) (fld w 1 8))
    else .suppressed .operand
  | 43 =>
    if fld w 0 1 = 0#1 then .instr (.or (fld w 17 8) (fld w 9 8) (fld w 1 8))
    else .suppressed .operand
  | 44 =>
    if fld w 0 1 = 0#1 then .instr (.xor (fld w 17 8) (fld w 9 8) (fld w 1 8))
    else .suppressed .operand
  | 45 =>
    if fld w 0 1 = 0#1 then .instr (.andn (fld w 17 8) (fld w 9 8) (fld w 1 8))
    else .suppressed .operand
  | 46 => .instr (.logi (fld w 17 8) (fld w 9 8) (fld w 7 2) (fld w 0 7))
  | 47 =>
    if fld w 5 2 = 0#2 then .instr (.shi (fld w 17 8) (fld w 9 8) (fld w 7 2) (fld w 0 5))
    else .suppressed .operand
  | 48 => .instr (.imin (fld w 17 8) (fld w 9 8) (fld w 1 8) (fld w 0 1))
  | 49 => .instr (.imax (fld w 17 8) (fld w 9 8) (fld w 1 8) (fld w 0 1))
  | 50 => .instr (.icmp (fld w 17 8) (fld w 9 8) (fld w 1 8) (fld w 0 1))
  | 51 =>
    if fld w 0 1 = 0#1 then .instr (.sel (fld w 17 8) (fld w 9 8) (fld w 1 8))
    else .suppressed .operand
  | 52 => .instr (.bfe (fld w 17 8) (fld w 9 8) (fld w 1 8) (fld w 0 1))
  | 53 =>
    if fld w 0 1 = 0#1 then .instr (.bfi (fld w 17 8) (fld w 9 8) (fld w 1 8))
    else .suppressed .operand
  | 54 =>
    if fld w 0 9 = 0#9 then .instr (.iunaPopc (fld w 17 8) (fld w 9 8))
    else if fld w 0 9 = 2#9 then .instr (.iunaClz (fld w 17 8) (fld w 9 8))
    else if fld w 0 9 = 4#9 then .instr (.iunaBrev (fld w 17 8) (fld w 9 8))
    else if fld w 0 9 = 6#9 then .instr (.iunaIabs (fld w 17 8) (fld w 9 8))
    else if fld w 0 9 = 8#9 then .instr (.iunaIneg (fld w 17 8) (fld w 9 8))
    else .suppressed .operand
  | 56 =>
    if fld w 0 1 = 0#1 then .instr (.lgetIdx (fld w 17 8) (fld w 9 8) (fld w 1 8))
    else if fld w 0 1 = 1#1 then .instr (.lgetRot (fld w 17 8) (fld w 9 8) (fld w 1 8))
    else .suppressed .operand
  | 57 =>
    if fld w 0 9 = 0#9 then .instr (.pollEvery (fld w 17 8) (fld w 9 8))
    else if fld w 0 9 = 2#9 then .instr (.pollSome (fld w 17 8) (fld w 9 8))
    else if fld w 0 9 = 4#9 then .instr (.pollMask (fld w 17 8) (fld w 9 8))
    else if fld w 0 9 = 6#9 then .instr (.pollSame (fld w 17 8) (fld w 9 8))
    else if fld w 0 9 = 8#9 then .instr (.pollCount (fld w 17 8) (fld w 9 8))
    else .suppressed .operand
  | 58 =>
    if fld w 0 9 = 0#9 then .instr (.wredAdd (fld w 17 8) (fld w 9 8))
    else if fld w 1 8 = 1#8 then .instr (.wredMin (fld w 17 8) (fld w 9 8) (fld w 0 1))
    else if fld w 1 8 = 2#8 then .instr (.wredMax (fld w 17 8) (fld w 9 8) (fld w 0 1))
    else if fld w 0 9 = 6#9 then .instr (.wredAnd (fld w 17 8) (fld w 9 8))
    else if fld w 0 9 = 8#9 then .instr (.wredOr (fld w 17 8) (fld w 9 8))
    else if fld w 0 9 = 10#9 then .instr (.wredXor (fld w 17 8) (fld w 9 8))
    else .suppressed .operand
  | 59 =>
    if fld w 0 9 = 0#9 then .instr (.wredfFadd (fld w 17 8) (fld w 9 8))
    else if fld w 0 9 = 2#9 then .instr (.wredfFmin (fld w 17 8) (fld w 9 8))
    else if fld w 0 9 = 4#9 then .instr (.wredfFmax (fld w 17 8) (fld w 9 8))
    else .suppressed .operand
  | 60 =>
    if fld w 1 8 = 0#8 then .instr (.scanIadd (fld w 17 8) (fld w 9 8) (fld w 0 1))
    else if fld w 1 8 = 1#8 then .instr (.scanFadd (fld w 17 8) (fld w 9 8) (fld w 0 1))
    else if fld w 1 8 = 2#8 then .instr (.scanImaxS (fld w 17 8) (fld w 9 8) (fld w 0 1))
    else if fld w 1 8 = 3#8 then .instr (.scanImaxN (fld w 17 8) (fld w 9 8) (fld w 0 1))
    else if fld w 1 8 = 4#8 then .instr (.scanIminS (fld w 17 8) (fld w 9 8) (fld w 0 1))
    else if fld w 1 8 = 5#8 then .instr (.scanIminN (fld w 17 8) (fld w 9 8) (fld w 0 1))
    else if fld w 1 8 = 6#8 then .instr (.scanOr (fld w 17 8) (fld w 9 8) (fld w 0 1))
    else .suppressed .operand
  | 61 =>
    if fld w 2 7 = 0#7 ∧ fld w 0 1 = 0#1 then .instr (.keymPeer (fld w 17 8) (fld w 9 8) (fld w 1 1))
    else if fld w 2 7 = 0#7 ∧ fld w 0 1 = 1#1 then .instr (.keymWhole (fld w 17 8) (fld w 9 8) (fld w 1 1))
    else .suppressed .operand
  | 62 =>
    if fld w 9 16 = 0#16 then .instr (.tile (fld w 0 9))
    else .suppressed .operand
  | 63 =>
    if fld w 0 17 = 0#17 then .instr (.headFlag (fld w 17 8))
    else if fld w 0 17 = 1#17 then .instr (.headNum (fld w 17 8))
    else .suppressed .operand
  | 64 =>
    if fld w 0 1 = 0#1 then .instr (.fadd (fld w 17 8) (fld w 9 8) (fld w 1 8))
    else .suppressed .operand
  | 65 =>
    if fld w 0 1 = 0#1 then .instr (.fsub (fld w 17 8) (fld w 9 8) (fld w 1 8))
    else .suppressed .operand
  | 66 =>
    if fld w 0 1 = 0#1 then .instr (.fmul (fld w 17 8) (fld w 9 8) (fld w 1 8))
    else .suppressed .operand
  | 67 =>
    if fld w 0 1 = 0#1 then .instr (.fmaA (fld w 17 8) (fld w 9 8) (fld w 1 8))
    else if fld w 0 1 = 1#1 then .instr (.fmaL (fld w 17 8) (fld w 9 8) (fld w 1 8))
    else .suppressed .operand
  | 68 =>
    if fld w 0 1 = 0#1 then .instr (.fmin (fld w 17 8) (fld w 9 8) (fld w 1 8))
    else .suppressed .operand
  | 69 =>
    if fld w 0 1 = 0#1 then .instr (.fmax (fld w 17 8) (fld w 9 8) (fld w 1 8))
    else .suppressed .operand
  | 70 => .instr (.fcmp (fld w 17 8) (fld w 9 8) (fld w 1 8) (fld w 0 1))
  | 71 =>
    if fld w 0 9 = 0#9 then .instr (.fclass (fld w 17 8) (fld w 9 8))
    else .suppressed .operand
  | 72 =>
    if fld w 0 9 = 0#9 then .instr (.frnd (fld w 17 8) (fld w 9 8))
    else .suppressed .operand
  | 73 =>
    if fld w 0 1 = 0#1 then .instr (.cvt (fld w 17 8) (fld w 9 8) (fld w 5 4) (fld w 1 4))
    else .suppressed .operand
  | 74 => .instr (.hadd2 (fld w 17 8) (fld w 9 8) (fld w 1 8) (fld w 0 1))
  | 75 => .instr (.hmul2 (fld w 17 8) (fld w 9 8) (fld w 1 8) (fld w 0 1))
  | 76 => .instr (.hfma2 (fld w 17 8) (fld w 9 8) (fld w 1 8) (fld w 0 1))
  | 77 =>
    if fld w 0 9 = 0#9 then .instr (.funaFabs (fld w 17 8) (fld w 9 8))
    else if fld w 0 9 = 2#9 then .instr (.funaFneg (fld w 17 8) (fld w 9 8))
    else .suppressed .operand
  | 78 =>
    if fld w 20 5 = 30#5 then .instr (.dot2 (fld w 17 3) (fld w 9 8) (fld w 1 8) (fld w 0 1))
    else .suppressed .operand
  | 79 =>
    if fld w 20 3 = 6#3 then .instr (.dot8 (fld w 23 2) (fld w 17 3) (fld w 9 8) (fld w 1 8) (fld w 0 1))
    else .suppressed .operand
  | 80 =>
    if fld w 20 3 = 6#3 then .instr (.dot4 (fld w 23 2) (fld w 17 3) (fld w 9 8) (fld w 1 8) (fld w 0 1))
    else .suppressed .operand
  | 81 =>
    if fld w 0 9 = 0#9 then .instr (.sfuRcp (fld w 17 8) (fld w 9 8))
    else if fld w 0 9 = 2#9 then .instr (.sfuRsq (fld w 17 8) (fld w 9 8))
    else if fld w 0 9 = 4#9 then .instr (.sfuSqrt (fld w 17 8) (fld w 9 8))
    else if fld w 0 9 = 6#9 then .instr (.sfuExp2 (fld w 17 8) (fld w 9 8))
    else if fld w 0 9 = 8#9 then .instr (.sfuLog2 (fld w 17 8) (fld w 9 8))
    else if fld w 0 9 = 10#9 then .instr (.sfuSinp (fld w 17 8) (fld w 9 8))
    else if fld w 0 9 = 12#9 then .instr (.sfuCosp (fld w 17 8) (fld w 9 8))
    else if fld w 0 9 = 14#9 then .instr (.sfuTanh (fld w 17 8) (fld w 9 8))
    else .suppressed .operand
  | 82 =>
    if fld w 0 1 = 0#1 then .instr (.exs (fld w 17 8) (fld w 9 8) (fld w 1 8))
    else .suppressed .operand
  | 83 =>
    if fld w 0 1 = 0#1 then .instr (.smxa (fld w 17 8) (fld w 9 8) (fld w 1 8))
    else .suppressed .operand
  | 84 =>
    if fld w 0 9 = 0#9 then .instr (.smxm (fld w 17 8) (fld w 9 8))
    else .suppressed .operand
  | 88 => .instr (.ld (fld w 17 8) (fld w 9 8) (fld w 7 2) (fld w 4 3) (fld w 2 2) (fld w 1 1) (fld w 0 1))
  | 89 =>
    if fld w 1 1 = 0#1 then .instr (.st (fld w 17 8) (fld w 9 8) (fld w 7 2) (fld w 4 3) (fld w 2 2) (fld w 0 1))
    else .suppressed .operand
  | 90 =>
    if fld w 7 2 = 0#2 ∧ fld w 1 3 = 0#3 then .instr (.ldp (fld w 17 8) (fld w 9 8) (fld w 4 3) (fld w 0 1))
    else .suppressed .operand
  | 91 =>
    if fld w 7 2 = 0#2 ∧ fld w 1 3 = 0#3 then .instr (.stp (fld w 17 8) (fld w 9 8) (fld w 4 3) (fld w 0 1))
    else .suppressed .operand
  | 92 => .instr (.atom (fld w 17 8) (fld w 9 8) (fld w 7 2) (fld w 3 4) (fld w 1 2) (fld w 0 1))
  | 93 => .instr (.atomn (fld w 17 8) (fld w 9 8) (fld w 7 2) (fld w 3 4) (fld w 1 2) (fld w 0 1))
  | 96 =>
    if fld w 5 20 = 0#20 then .instr (.fence (fld w 3 2) (fld w 0 3))
    else .suppressed .operand
  | 97 =>
    if fld w 4 3 = 3#3 ∧ fld w 0 2 = 0#2 then .instr (.stc (fld w 17 8) (fld w 9 8) (fld w 7 2) (fld w 2 2))
    else .suppressed .operand
  | 98 =>
    if fld w 0 1 = 0#1 then .instr (.waitv (fld w 17 8) (fld w 9 8) (fld w 7 2) (fld w 3 4) (fld w 1 2))
    else .suppressed .operand
  | 99 => .instr (.smap (fld w 17 8) (fld w 9 8) (fld w 3 6) (fld w 0 3))
  | 100 =>
    if fld w 9 16 = 0#16 ∧ fld w 5 3 = 0#3 then .instr (.sunmap (fld w 8 1) (fld w 0 5))
    else .suppressed .operand
  | 101 =>
    if fld w 9 16 = 0#16 ∧ fld w 5 3 = 0#3 then .instr (.sflush (fld w 8 1) (fld w 0 5))
    else .suppressed .operand
  | 104 =>
    if fld w 0 3 = 0#3 then .instr (.xcopyG2s (fld w 17 8) (fld w 9 8) (fld w 3 6))
    else if fld w 0 3 = 1#3 then .instr (.xcopyS2g (fld w 17 8) (fld w 9 8) (fld w 3 6))
    else if fld w 0 3 = 2#3 then .instr (.xcopyS2c (fld w 17 8) (fld w 9 8) (fld w 3 6))
    else if fld w 0 3 = 3#3 then .instr (.xcopyMcast (fld w 17 8) (fld w 9 8) (fld w 3 6))
    else if fld w 0 3 = 4#3 then .instr (.xcopyRemote (fld w 17 8) (fld w 9 8) (fld w 3 6))
    else .suppressed .operand
  | 105 => .instr (.xloadw (fld w 17 8) (fld w 9 8) (fld w 3 6) (fld w 0 3))
  | 106 =>
    if fld w 0 25 = 0#25 then .instr .rfence
    else .suppressed .operand
  | 107 =>
    if fld w 0 9 = 0#9 then .instr (.twaitAll (fld w 17 8) (fld w 9 8))
    else if fld w 0 9 = 1#9 then .instr (.twaitAny (fld w 17 8) (fld w 9 8))
    else .suppressed .operand
  | 108 =>
    if fld w 0 9 = 0#9 then .instr (.tfirst (fld w 17 8) (fld w 9 8))
    else .suppressed .operand
  | 109 =>
    if fld w 17 8 = 0#8 ∧ fld w 0 9 = 0#9 then .instr (.tack (fld w 9 8))
    else .suppressed .operand
  | 112 => .instr (.mloop (fld w 21 4) (fld w 17 4) (fld w 9 8) (fld w 1 8) (fld w 0 1))
  | 113 =>
    if fld w 0 21 = 0#21 then .instr (.mzero (fld w 21 4))
    else .suppressed .operand
  | 114 =>
    if fld w 17 4 = 0#4 ∧ fld w 0 9 = 0#9 then .instr (.mscale (fld w 21 4) (fld w 9 8))
    else .suppressed .operand
  | 115 =>
    if fld w 0 1 = 0#1 then .instr (.mout (fld w 21 4) (fld w 17 4) (fld w 9 8) (fld w 1 8))
    else .suppressed .operand
  | 116 =>
    if fld w 5 4 = 0#4 ∧ fld w 0 1 = 0#1 then .instr (.mget (fld w 17 8) (fld w 9 8) (fld w 1 4))
    else .suppressed .operand
  | 117 =>
    if fld w 5 4 = 0#4 ∧ fld w 0 1 = 0#1 then .instr (.mput (fld w 17 8) (fld w 9 8) (fld w 1 4))
    else .suppressed .operand
  | 118 =>
    if fld w 17 8 = 0#8 ∧ fld w 0 1 = 0#1 then .instr (.mperturb (fld w 9 8) (fld w 1 8))
    else .suppressed .operand
  | 120 =>
    if fld w 4 21 = 0#21 then .instr (.barArrive (fld w 0 4))
    else if fld w 4 21 = 1#21 then .instr (.barWait (fld w 0 4))
    else if fld w 4 21 = 2#21 then .instr (.barSync (fld w 0 4))
    else if fld w 17 8 = 0#8 ∧ fld w 4 5 = 3#5 then .instr (.barExpect (fld w 9 8) (fld w 0 4))
    else .suppressed .operand
  | 121 =>
    if fld w 0 25 = 0#25 then .instr .gbar
    else .suppressed .operand
  | 122 =>
    if fld w 0 9 = 0#9 then .instr (.spawn (fld w 17 8) (fld w 9 8))
    else .suppressed .operand
  | 123 =>
    if fld w 0 9 = 0#9 then .instr (.joinc (fld w 17 8) (fld w 9 8))
    else .suppressed .operand
  | 124 =>
    if fld w 0 25 = 0#25 then .instr .rgn
    else .suppressed .operand
  | 125 =>
    if fld w 0 25 = 0#25 then .instr .commitX
    else if fld w 17 8 = 64#8 then .instr (.commitB (fld w 0 17))
    else if fld w 17 8 = 128#8 then .instr (.commitR (fld w 0 17))
    else if fld w 0 25 = 25165824#25 then .instr .commitP
    else .suppressed .operand
  | 126 =>
    if fld w 0 9 = 0#9 then .instr (.ptest (fld w 17 8) (fld w 9 8))
    else if fld w 0 9 = 2#9 then .instr (.pinfoCause (fld w 17 8) (fld w 9 8))
    else if fld w 0 9 = 4#9 then .instr (.pinfoEntry (fld w 17 8) (fld w 9 8))
    else if fld w 0 9 = 6#9 then .instr (.pfill (fld w 17 8) (fld w 9 8))
    else if fld w 0 9 = 8#9 then .instr (.pset (fld w 17 8) (fld w 9 8))
    else .suppressed .operand
  | _ => .suppressed .encoding

/-- A word from its fixed bits and its fields, each with its lowest bit. -/
def pack (base : Nat) (fs : List (Nat × Nat)) : Word := BitVec.ofNat 32 (fs.foldl (fun x f => x + f.1 * 2 ^ f.2) base)

/-- The word of a well-formed instruction (R82 to R89). An event has no encoding, and 0 stands for it. -/
def encode : Instr → Word
  | .nop => pack 0x02000000 []
  | .bra o => pack 0x04000000 [(o.toNat, 0)]
  | .bz a o => pack 0x06000000 [(a.toNat, 17), (o.toNat, 0)]
  | .bnz a o => pack 0x08000000 [(a.toNat, 17), (o.toNat, 0)]
  | .brx a => pack 0x0A000000 [(a.toNat, 9)]
  | .call d i => pack 0x0C000000 [(d.toNat, 17), (i.toNat, 0)]
  | .ret a => pack 0x0E000000 [(a.toNat, 9)]
  | .exit => pack 0x10000000 []
  | .yield => pack 0x12000000 []
  | .brk c => pack 0x14000000 [(c.toNat, 0)]
  | .signal a n => pack 0x16000000 [(a.toNat, 9), (n.toNat, 0)]
  | .clock d => pack 0x18000000 [(d.toNat, 17)]
  | .sget d s => pack 0x1A000000 [(d.toNat, 17), (s.toNat, 7)]
  | .sset r s => pack 0x1C000000 [(r.toNat, 17), (s.toNat, 7)]
  | .ximmL i => pack 0x20000000 [(i.toNat, 0)]
  | .ximmH i => pack 0x22000000 [(i.toNat, 0)]
  | .life a b => pack 0x24000000 [(a.toNat, 16), (b.toNat, 0)]
  | .hold c m => pack 0x26000000 [(c.toNat, 3), (m.toNat, 0)]
  | .holdRel => pack 0x26000040 []
  | .scale b a => pack 0x28000000 [(b.toNat, 8), (a.toNat, 0)]
  | .mod h a b c s t r => pack 0x2A000000 [(h.toNat, 16), (a.toNat, 15), (b.toNat, 11), (c.toNat, 7), (s.toNat, 4), (t.toNat, 3), (r.toNat, 0)]
  | .sched d => pack 0x2C000000 [(d.toNat, 1)]
  | .schedYp d => pack 0x2C000001 [(d.toNat, 1)]
  | .mov d a => pack 0x30000000 [(d.toNat, 17), (a.toNat, 9)]
  | .movi d i => pack 0x32000000 [(d.toNat, 17), (i.toNat, 0)]
  | .movg d a => pack 0x34000000 [(d.toNat, 17), (a.toNat, 9)]
  | .shape d a => pack 0x36000000 [(d.toNat, 17), (a.toNat, 9)]
  | .spill a s => pack 0x38000000 [(a.toNat, 9), (s.toNat, 0)]
  | .reload d s => pack 0x3A000000 [(d.toNat, 17), (s.toNat, 0)]
  | .iadd d a b v => pack 0x40000000 [(d.toNat, 17), (a.toNat, 9), (b.toNat, 1), (v.toNat, 0)]
  | .isub d a b v => pack 0x42000000 [(d.toNat, 17), (a.toNat, 9), (b.toNat, 1), (v.toNat, 0)]
  | .imul d a b v => pack 0x44000000 [(d.toNat, 17), (a.toNat, 9), (b.toNat, 1), (v.toNat, 0)]
  | .imulh d a b v => pack 0x46000000 [(d.toNat, 17), (a.toNat, 9), (b.toNat, 1), (v.toNat, 0)]
  | .imac d a b v => pack 0x48000000 [(d.toNat, 17), (a.toNat, 9), (b.toNat, 1), (v.toNat, 0)]
  | .iaddcCo d a b => pack 0x4A000000 [(d.toNat, 17), (a.toNat, 9), (b.toNat, 1)]
  | .iaddcCi d a b => pack 0x4A000001 [(d.toNat, 17), (a.toNat, 9), (b.toNat, 1)]
  | .lea d a b v => pack 0x4C000000 [(d.toNat, 17), (a.toNat, 9), (b.toNat, 1), (v.toNat, 0)]
  | .iaddi d a i => pack 0x4E000000 [(d.toNat, 17), (a.toNat, 9), (i.toNat, 0)]
  | .ishl d a b => pack 0x50000000 [(d.toNat, 17), (a.toNat, 9), (b.toNat, 1)]
  | .ishr d a b v => pack 0x52000000 [(d.toNat, 17), (a.toNat, 9), (b.toNat, 1), (v.toNat, 0)]
  | .and d a b => pack 0x54000000 [(d.toNat, 17), (a.toNat, 9), (b.toNat, 1)]
  | .or d a b => pack 0x56000000 [(d.toNat, 17), (a.toNat, 9), (b.toNat, 1)]
  | .xor d a b => pack 0x58000000 [(d.toNat, 17), (a.toNat, 9), (b.toNat, 1)]
  | .andn d a b => pack 0x5A000000 [(d.toNat, 17), (a.toNat, 9), (b.toNat, 1)]
  | .logi d a f i => pack 0x5C000000 [(d.toNat, 17), (a.toNat, 9), (f.toNat, 7), (i.toNat, 0)]
  | .shi d a k n => pack 0x5E000000 [(d.toNat, 17), (a.toNat, 9), (k.toNat, 7), (n.toNat, 0)]
  | .imin d a b v => pack 0x60000000 [(d.toNat, 17), (a.toNat, 9), (b.toNat, 1), (v.toNat, 0)]
  | .imax d a b v => pack 0x62000000 [(d.toNat, 17), (a.toNat, 9), (b.toNat, 1), (v.toNat, 0)]
  | .icmp d a b v => pack 0x64000000 [(d.toNat, 17), (a.toNat, 9), (b.toNat, 1), (v.toNat, 0)]
  | .sel d a b => pack 0x66000000 [(d.toNat, 17), (a.toNat, 9), (b.toNat, 1)]
  | .bfe d a b v => pack 0x68000000 [(d.toNat, 17), (a.toNat, 9), (b.toNat, 1), (v.toNat, 0)]
  | .bfi d a b => pack 0x6A000000 [(d.toNat, 17), (a.toNat, 9), (b.toNat, 1)]
  | .iunaPopc d a => pack 0x6C000000 [(d.toNat, 17), (a.toNat, 9)]
  | .iunaClz d a => pack 0x6C000002 [(d.toNat, 17), (a.toNat, 9)]
  | .iunaBrev d a => pack 0x6C000004 [(d.toNat, 17), (a.toNat, 9)]
  | .iunaIabs d a => pack 0x6C000006 [(d.toNat, 17), (a.toNat, 9)]
  | .iunaIneg d a => pack 0x6C000008 [(d.toNat, 17), (a.toNat, 9)]
  | .lgetIdx d a b => pack 0x70000000 [(d.toNat, 17), (a.toNat, 9), (b.toNat, 1)]
  | .lgetRot d a b => pack 0x70000001 [(d.toNat, 17), (a.toNat, 9), (b.toNat, 1)]
  | .pollEvery d a => pack 0x72000000 [(d.toNat, 17), (a.toNat, 9)]
  | .pollSome d a => pack 0x72000002 [(d.toNat, 17), (a.toNat, 9)]
  | .pollMask d a => pack 0x72000004 [(d.toNat, 17), (a.toNat, 9)]
  | .pollSame d a => pack 0x72000006 [(d.toNat, 17), (a.toNat, 9)]
  | .pollCount d a => pack 0x72000008 [(d.toNat, 17), (a.toNat, 9)]
  | .wredAdd d a => pack 0x74000000 [(d.toNat, 17), (a.toNat, 9)]
  | .wredMin d a v => pack 0x74000002 [(d.toNat, 17), (a.toNat, 9), (v.toNat, 0)]
  | .wredMax d a v => pack 0x74000004 [(d.toNat, 17), (a.toNat, 9), (v.toNat, 0)]
  | .wredAnd d a => pack 0x74000006 [(d.toNat, 17), (a.toNat, 9)]
  | .wredOr d a => pack 0x74000008 [(d.toNat, 17), (a.toNat, 9)]
  | .wredXor d a => pack 0x7400000A [(d.toNat, 17), (a.toNat, 9)]
  | .wredfFadd d a => pack 0x76000000 [(d.toNat, 17), (a.toNat, 9)]
  | .wredfFmin d a => pack 0x76000002 [(d.toNat, 17), (a.toNat, 9)]
  | .wredfFmax d a => pack 0x76000004 [(d.toNat, 17), (a.toNat, 9)]
  | .scanIadd d a v => pack 0x78000000 [(d.toNat, 17), (a.toNat, 9), (v.toNat, 0)]
  | .scanFadd d a v => pack 0x78000002 [(d.toNat, 17), (a.toNat, 9), (v.toNat, 0)]
  | .scanImaxS d a v => pack 0x78000004 [(d.toNat, 17), (a.toNat, 9), (v.toNat, 0)]
  | .scanImaxN d a v => pack 0x78000006 [(d.toNat, 17), (a.toNat, 9), (v.toNat, 0)]
  | .scanIminS d a v => pack 0x78000008 [(d.toNat, 17), (a.toNat, 9), (v.toNat, 0)]
  | .scanIminN d a v => pack 0x7800000A [(d.toNat, 17), (a.toNat, 9), (v.toNat, 0)]
  | .scanOr d a v => pack 0x7800000C [(d.toNat, 17), (a.toNat, 9), (v.toNat, 0)]
  | .keymPeer d a f => pack 0x7A000000 [(d.toNat, 17), (a.toNat, 9), (f.toNat, 1)]
  | .keymWhole d a f => pack 0x7A000001 [(d.toNat, 17), (a.toNat, 9), (f.toNat, 1)]
  | .tile s => pack 0x7C000000 [(s.toNat, 0)]
  | .headFlag d => pack 0x7E000000 [(d.toNat, 17)]
  | .headNum d => pack 0x7E000001 [(d.toNat, 17)]
  | .fadd d a b => pack 0x80000000 [(d.toNat, 17), (a.toNat, 9), (b.toNat, 1)]
  | .fsub d a b => pack 0x82000000 [(d.toNat, 17), (a.toNat, 9), (b.toNat, 1)]
  | .fmul d a b => pack 0x84000000 [(d.toNat, 17), (a.toNat, 9), (b.toNat, 1)]
  | .fmaA d a b => pack 0x86000000 [(d.toNat, 17), (a.toNat, 9), (b.toNat, 1)]
  | .fmaL d a b => pack 0x86000001 [(d.toNat, 17), (a.toNat, 9), (b.toNat, 1)]
  | .fmin d a b => pack 0x88000000 [(d.toNat, 17), (a.toNat, 9), (b.toNat, 1)]
  | .fmax d a b => pack 0x8A000000 [(d.toNat, 17), (a.toNat, 9), (b.toNat, 1)]
  | .fcmp d a b v => pack 0x8C000000 [(d.toNat, 17), (a.toNat, 9), (b.toNat, 1), (v.toNat, 0)]
  | .fclass d a => pack 0x8E000000 [(d.toNat, 17), (a.toNat, 9)]
  | .frnd d a => pack 0x90000000 [(d.toNat, 17), (a.toNat, 9)]
  | .cvt d a t f => pack 0x92000000 [(d.toNat, 17), (a.toNat, 9), (t.toNat, 5), (f.toNat, 1)]
  | .hadd2 d a b v => pack 0x94000000 [(d.toNat, 17), (a.toNat, 9), (b.toNat, 1), (v.toNat, 0)]
  | .hmul2 d a b v => pack 0x96000000 [(d.toNat, 17), (a.toNat, 9), (b.toNat, 1), (v.toNat, 0)]
  | .hfma2 d a b v => pack 0x98000000 [(d.toNat, 17), (a.toNat, 9), (b.toNat, 1), (v.toNat, 0)]
  | .funaFabs d a => pack 0x9A000000 [(d.toNat, 17), (a.toNat, 9)]
  | .funaFneg d a => pack 0x9A000002 [(d.toNat, 17), (a.toNat, 9)]
  | .dot2 d a b v => pack 0x9DE00000 [(d.toNat, 17), (a.toNat, 9), (b.toNat, 1), (v.toNat, 0)]
  | .dot8 s d a b v => pack 0x9E600000 [(s.toNat, 23), (d.toNat, 17), (a.toNat, 9), (b.toNat, 1), (v.toNat, 0)]
  | .dot4 s d a b v => pack 0xA0600000 [(s.toNat, 23), (d.toNat, 17), (a.toNat, 9), (b.toNat, 1), (v.toNat, 0)]
  | .sfuRcp d a => pack 0xA2000000 [(d.toNat, 17), (a.toNat, 9)]
  | .sfuRsq d a => pack 0xA2000002 [(d.toNat, 17), (a.toNat, 9)]
  | .sfuSqrt d a => pack 0xA2000004 [(d.toNat, 17), (a.toNat, 9)]
  | .sfuExp2 d a => pack 0xA2000006 [(d.toNat, 17), (a.toNat, 9)]
  | .sfuLog2 d a => pack 0xA2000008 [(d.toNat, 17), (a.toNat, 9)]
  | .sfuSinp d a => pack 0xA200000A [(d.toNat, 17), (a.toNat, 9)]
  | .sfuCosp d a => pack 0xA200000C [(d.toNat, 17), (a.toNat, 9)]
  | .sfuTanh d a => pack 0xA200000E [(d.toNat, 17), (a.toNat, 9)]
  | .exs d a b => pack 0xA4000000 [(d.toNat, 17), (a.toNat, 9), (b.toNat, 1)]
  | .smxa d a b => pack 0xA6000000 [(d.toNat, 17), (a.toNat, 9), (b.toNat, 1)]
  | .smxm d a => pack 0xA8000000 [(d.toNat, 17), (a.toNat, 9)]
  | .ld d a p s o x c => pack 0xB0000000 [(d.toNat, 17), (a.toNat, 9), (p.toNat, 7), (s.toNat, 4), (o.toNat, 2), (x.toNat, 1), (c.toNat, 0)]
  | .st d a p s o c => pack 0xB2000000 [(d.toNat, 17), (a.toNat, 9), (p.toNat, 7), (s.toNat, 4), (o.toNat, 2), (c.toNat, 0)]
  | .ldp d a s c => pack 0xB4000000 [(d.toNat, 17), (a.toNat, 9), (s.toNat, 4), (c.toNat, 0)]
  | .stp d a s c => pack 0xB6000000 [(d.toNat, 17), (a.toNat, 9), (s.toNat, 4), (c.toNat, 0)]
  | .atom v a p o r w => pack 0xB8000000 [(v.toNat, 17), (a.toNat, 9), (p.toNat, 7), (o.toNat, 3), (r.toNat, 1), (w.toNat, 0)]
  | .atomn v a p o r w => pack 0xBA000000 [(v.toNat, 17), (a.toNat, 9), (p.toNat, 7), (o.toNat, 3), (r.toNat, 1), (w.toNat, 0)]
  | .fence k s => pack 0xC0000000 [(k.toNat, 3), (s.toNat, 0)]
  | .stc d a p o => pack 0xC2000030 [(d.toNat, 17), (a.toNat, 9), (p.toNat, 7), (o.toNat, 2)]
  | .waitv v a p c o => pack 0xC4000000 [(v.toNat, 17), (a.toNat, 9), (p.toNat, 7), (c.toNat, 3), (o.toNat, 1)]
  | .smap r a t m => pack 0xC6000000 [(r.toNat, 17), (a.toNat, 9), (t.toNat, 3), (m.toNat, 0)]
  | .sunmap l e => pack 0xC8000000 [(l.toNat, 8), (e.toNat, 0)]
  | .sflush l e => pack 0xCA000000 [(l.toNat, 8), (e.toNat, 0)]
  | .xcopyG2s r a t => pack 0xD0000000 [(r.toNat, 17), (a.toNat, 9), (t.toNat, 3)]
  | .xcopyS2g r a t => pack 0xD0000001 [(r.toNat, 17), (a.toNat, 9), (t.toNat, 3)]
  | .xcopyS2c r a t => pack 0xD0000002 [(r.toNat, 17), (a.toNat, 9), (t.toNat, 3)]
  | .xcopyMcast r a t => pack 0xD0000003 [(r.toNat, 17), (a.toNat, 9), (t.toNat, 3)]
  | .xcopyRemote r a t => pack 0xD0000004 [(r.toNat, 17), (a.toNat, 9), (t.toNat, 3)]
  | .xloadw r a t s => pack 0xD2000000 [(r.toNat, 17), (a.toNat, 9), (t.toNat, 3), (s.toNat, 0)]
  | .rfence => pack 0xD4000000 []
  | .twaitAll d a => pack 0xD6000000 [(d.toNat, 17), (a.toNat, 9)]
  | .twaitAny d a => pack 0xD6000001 [(d.toNat, 17), (a.toNat, 9)]
  | .tfirst d a => pack 0xD8000000 [(d.toNat, 17), (a.toNat, 9)]
  | .tack a => pack 0xDA000000 [(a.toNat, 9)]
  | .mloop n f a c m => pack 0xE0000000 [(n.toNat, 21), (f.toNat, 17), (a.toNat, 9), (c.toNat, 1), (m.toNat, 0)]
  | .mzero n => pack 0xE2000000 [(n.toNat, 21)]
  | .mscale n a => pack 0xE4000000 [(n.toNat, 21), (a.toNat, 9)]
  | .mout n f a c => pack 0xE6000000 [(n.toNat, 21), (f.toNat, 17), (a.toNat, 9), (c.toNat, 1)]
  | .mget d a s => pack 0xE8000000 [(d.toNat, 17), (a.toNat, 9), (s.toNat, 1)]
  | .mput r a s => pack 0xEA000000 [(r.toNat, 17), (a.toNat, 9), (s.toNat, 1)]
  | .mperturb a b => pack 0xEC000000 [(a.toNat, 9), (b.toNat, 1)]
  | .barArrive i => pack 0xF0000000 [(i.toNat, 0)]
  | .barWait i => pack 0xF0000010 [(i.toNat, 0)]
  | .barSync i => pack 0xF0000020 [(i.toNat, 0)]
  | .barExpect a i => pack 0xF0000030 [(a.toNat, 9), (i.toNat, 0)]
  | .gbar => pack 0xF2000000 []
  | .spawn d a => pack 0xF4000000 [(d.toNat, 17), (a.toNat, 9)]
  | .joinc d a => pack 0xF6000000 [(d.toNat, 17), (a.toNat, 9)]
  | .rgn => pack 0xF8000000 []
  | .commitX => pack 0xFA000000 []
  | .commitB o => pack 0xFA800000 [(o.toNat, 0)]
  | .commitR o => pack 0xFB000000 [(o.toNat, 0)]
  | .commitP => pack 0xFB800000 []
  | .ptest d a => pack 0xFC000000 [(d.toNat, 17), (a.toNat, 9)]
  | .pinfoCause d a => pack 0xFC000002 [(d.toNat, 17), (a.toNat, 9)]
  | .pinfoEntry d a => pack 0xFC000004 [(d.toNat, 17), (a.toNat, 9)]
  | .pfill d a => pack 0xFC000006 [(d.toNat, 17), (a.toNat, 9)]
  | .pset d a => pack 0xFC000008 [(d.toNat, 17), (a.toNat, 9)]
  | .suppressedWord _ => 0#32
  | .switchedIssue => 0#32
  | .resultArrival _ => 0#32
  | .instructionFetch => 0#32
  | .fetchRetry => 0#32
  | .translationWalk _ _ _ _ => 0#32
  | .storeDrain _ _ => 0#32
  | .writeApply _ _ => 0#32
  | .stashLineFill _ _ _ => 0#32
  | .smapExecute _ => 0#32
  | .copyRecordFetch _ => 0#32
  | .copySector _ => 0#32
  | .copyTagDone _ => 0#32
  | .mloopStep _ => 0#32
  | .mloopComplete _ => 0#32
  | .matrixTagDone _ => 0#32
  | .slotAccess _ => 0#32
  | .moutExecute _ => 0#32
  | .waitvTest _ => 0#32
  | .waitvTimeout _ => 0#32
  | .commitRReplay _ => 0#32
  | .commitPMatch _ => 0#32
  | .commitPTimeout _ => 0#32
  | .stcFlagSend _ => 0#32
  | .countedWriteArrival _ => 0#32
  | .flagArrival _ => 0#32
  | .flagWriteRetry _ => 0#32
  | .flagHoldExpiry _ => 0#32
  | .lossNoticeArrival _ => 0#32
  | .packetAgeExpiry _ => 0#32
  | .remoteAccessArrival _ => 0#32
  | .remoteResponseArrival _ _ => 0#32
  | .remoteResponseTimeout _ => 0#32
  | .hostResponseArrival _ _ => 0#32
  | .launchPacketTake _ => 0#32
  | .launchReadRetry _ => 0#32
  | .sizeClassSelect _ => 0#32
  | .launchAdmit _ => 0#32
  | .clusterPlace _ _ _ => 0#32
  | .workgroupEnd _ => 0#32
  | .launchComplete _ => 0#32
  | .taskStart _ => 0#32
  | .taskRingRefill _ _ => 0#32
  | .taskAutojoin _ => 0#32
  | .taskAutojoinRetry _ => 0#32
  | .preemptDecision _ => 0#32
  | .drainBoundExpiry _ => 0#32
  | .warpSave _ => 0#32
  | .unitSave _ => 0#32
  | .unitFlush _ => 0#32
  | .unitResume _ _ _ => 0#32
  | .pageHomeMove _ _ _ => 0#32
  | .squeegeeScrub _ => 0#32
  | .contextKill _ _ => 0#32
  | .censusUpdate => 0#32
  | .resourceFailure _ => 0#32
  | .planeFailure _ => 0#32
  | .thermalThrottle => 0#32
  | .thermalTrip => 0#32
  | .coldReset => 0#32
  | .portLinkDown _ => 0#32
  | .qwrite _ _ _ => 0#32
  | .qctlEnSet _ _ _ => 0#32
  | .qctlEnClear _ _ _ => 0#32
  | .qctlDrain _ _ _ => 0#32
  | .flr _ => 0#32
  | .ctlsemAcq _ => 0#32
  | .ctlsemRel _ => 0#32
  | .mbdoor _ => 0#32
  | .create _ _ => 0#32
  | .destroy _ _ => 0#32
  | .setroot _ _ => 0#32
  | .inval _ _ => 0#32
  | .grant _ _ => 0#32
  | .share _ _ => 0#32
  | .channel _ _ => 0#32
  | .vfassign _ _ => 0#32
  | .isolate _ _ => 0#32
  | .fwupdate _ _ => 0#32
  | .drain _ _ => 0#32
  | .reset _ _ => 0#32
  | .ectrWrite _ _ _ _ => 0#32
  | .srdoneWrite _ _ _ => 0#32
  | .injctlArm _ _ _ => 0#32
  | .injctlDisarm _ _ _ => 0#32
  | .registerWrite _ _ _ => 0#32
  | .bar2Read _ _ _ => 0#32
  | .bar2Write _ _ _ => 0#32
  | .hostCxlMemAccess _ _ _ _ => 0#32
  | .censusRead _ _ => 0#32
  | .getVersion => 0#32
  | .getCapabilities => 0#32
  | .negotiateAlgorithms => 0#32
  | .getDigests => 0#32
  | .getCertificate _ _ => 0#32
  | .challenge _ => 0#32
  | .getMeasurements _ _ => 0#32
  | .unsupportedRequest _ => 0#32
  | .pldmSensorRead _ => 0#32
  | .fruEepromRead _ _ => 0#32
  | .vfEnable _ _ => 0#32
  | .powerLoss => 0#32
  | .backInvalidateResponse _ => 0#32
  | .globalObservationResponse _ _ => 0#32

/-- Whether the constructor is an instruction word of R82 to R89, and not an event. -/
def Instr.isWord : Instr → Bool
  | .nop => true
  | .bra _ => true
  | .bz _ _ => true
  | .bnz _ _ => true
  | .brx _ => true
  | .call _ _ => true
  | .ret _ => true
  | .exit => true
  | .yield => true
  | .brk _ => true
  | .signal _ _ => true
  | .clock _ => true
  | .sget _ _ => true
  | .sset _ _ => true
  | .ximmL _ => true
  | .ximmH _ => true
  | .life _ _ => true
  | .hold _ _ => true
  | .holdRel => true
  | .scale _ _ => true
  | .mod _ _ _ _ _ _ _ => true
  | .sched _ => true
  | .schedYp _ => true
  | .mov _ _ => true
  | .movi _ _ => true
  | .movg _ _ => true
  | .shape _ _ => true
  | .spill _ _ => true
  | .reload _ _ => true
  | .iadd _ _ _ _ => true
  | .isub _ _ _ _ => true
  | .imul _ _ _ _ => true
  | .imulh _ _ _ _ => true
  | .imac _ _ _ _ => true
  | .iaddcCo _ _ _ => true
  | .iaddcCi _ _ _ => true
  | .lea _ _ _ _ => true
  | .iaddi _ _ _ => true
  | .ishl _ _ _ => true
  | .ishr _ _ _ _ => true
  | .and _ _ _ => true
  | .or _ _ _ => true
  | .xor _ _ _ => true
  | .andn _ _ _ => true
  | .logi _ _ _ _ => true
  | .shi _ _ _ _ => true
  | .imin _ _ _ _ => true
  | .imax _ _ _ _ => true
  | .icmp _ _ _ _ => true
  | .sel _ _ _ => true
  | .bfe _ _ _ _ => true
  | .bfi _ _ _ => true
  | .iunaPopc _ _ => true
  | .iunaClz _ _ => true
  | .iunaBrev _ _ => true
  | .iunaIabs _ _ => true
  | .iunaIneg _ _ => true
  | .lgetIdx _ _ _ => true
  | .lgetRot _ _ _ => true
  | .pollEvery _ _ => true
  | .pollSome _ _ => true
  | .pollMask _ _ => true
  | .pollSame _ _ => true
  | .pollCount _ _ => true
  | .wredAdd _ _ => true
  | .wredMin _ _ _ => true
  | .wredMax _ _ _ => true
  | .wredAnd _ _ => true
  | .wredOr _ _ => true
  | .wredXor _ _ => true
  | .wredfFadd _ _ => true
  | .wredfFmin _ _ => true
  | .wredfFmax _ _ => true
  | .scanIadd _ _ _ => true
  | .scanFadd _ _ _ => true
  | .scanImaxS _ _ _ => true
  | .scanImaxN _ _ _ => true
  | .scanIminS _ _ _ => true
  | .scanIminN _ _ _ => true
  | .scanOr _ _ _ => true
  | .keymPeer _ _ _ => true
  | .keymWhole _ _ _ => true
  | .tile _ => true
  | .headFlag _ => true
  | .headNum _ => true
  | .fadd _ _ _ => true
  | .fsub _ _ _ => true
  | .fmul _ _ _ => true
  | .fmaA _ _ _ => true
  | .fmaL _ _ _ => true
  | .fmin _ _ _ => true
  | .fmax _ _ _ => true
  | .fcmp _ _ _ _ => true
  | .fclass _ _ => true
  | .frnd _ _ => true
  | .cvt _ _ _ _ => true
  | .hadd2 _ _ _ _ => true
  | .hmul2 _ _ _ _ => true
  | .hfma2 _ _ _ _ => true
  | .funaFabs _ _ => true
  | .funaFneg _ _ => true
  | .dot2 _ _ _ _ => true
  | .dot8 _ _ _ _ _ => true
  | .dot4 _ _ _ _ _ => true
  | .sfuRcp _ _ => true
  | .sfuRsq _ _ => true
  | .sfuSqrt _ _ => true
  | .sfuExp2 _ _ => true
  | .sfuLog2 _ _ => true
  | .sfuSinp _ _ => true
  | .sfuCosp _ _ => true
  | .sfuTanh _ _ => true
  | .exs _ _ _ => true
  | .smxa _ _ _ => true
  | .smxm _ _ => true
  | .ld _ _ _ _ _ _ _ => true
  | .st _ _ _ _ _ _ => true
  | .ldp _ _ _ _ => true
  | .stp _ _ _ _ => true
  | .atom _ _ _ _ _ _ => true
  | .atomn _ _ _ _ _ _ => true
  | .fence _ _ => true
  | .stc _ _ _ _ => true
  | .waitv _ _ _ _ _ => true
  | .smap _ _ _ _ => true
  | .sunmap _ _ => true
  | .sflush _ _ => true
  | .xcopyG2s _ _ _ => true
  | .xcopyS2g _ _ _ => true
  | .xcopyS2c _ _ _ => true
  | .xcopyMcast _ _ _ => true
  | .xcopyRemote _ _ _ => true
  | .xloadw _ _ _ _ => true
  | .rfence => true
  | .twaitAll _ _ => true
  | .twaitAny _ _ => true
  | .tfirst _ _ => true
  | .tack _ => true
  | .mloop _ _ _ _ _ => true
  | .mzero _ => true
  | .mscale _ _ => true
  | .mout _ _ _ _ => true
  | .mget _ _ _ => true
  | .mput _ _ _ => true
  | .mperturb _ _ => true
  | .barArrive _ => true
  | .barWait _ => true
  | .barSync _ => true
  | .barExpect _ _ => true
  | .gbar => true
  | .spawn _ _ => true
  | .joinc _ _ => true
  | .rgn => true
  | .commitX => true
  | .commitB _ => true
  | .commitR _ => true
  | .commitP => true
  | .ptest _ _ => true
  | .pinfoCause _ _ => true
  | .pinfoEntry _ _ => true
  | .pfill _ _ => true
  | .pset _ _ => true
  | .suppressedWord _ => false
  | .switchedIssue => false
  | .resultArrival _ => false
  | .instructionFetch => false
  | .fetchRetry => false
  | .translationWalk _ _ _ _ => false
  | .storeDrain _ _ => false
  | .writeApply _ _ => false
  | .stashLineFill _ _ _ => false
  | .smapExecute _ => false
  | .copyRecordFetch _ => false
  | .copySector _ => false
  | .copyTagDone _ => false
  | .mloopStep _ => false
  | .mloopComplete _ => false
  | .matrixTagDone _ => false
  | .slotAccess _ => false
  | .moutExecute _ => false
  | .waitvTest _ => false
  | .waitvTimeout _ => false
  | .commitRReplay _ => false
  | .commitPMatch _ => false
  | .commitPTimeout _ => false
  | .stcFlagSend _ => false
  | .countedWriteArrival _ => false
  | .flagArrival _ => false
  | .flagWriteRetry _ => false
  | .flagHoldExpiry _ => false
  | .lossNoticeArrival _ => false
  | .packetAgeExpiry _ => false
  | .remoteAccessArrival _ => false
  | .remoteResponseArrival _ _ => false
  | .remoteResponseTimeout _ => false
  | .hostResponseArrival _ _ => false
  | .launchPacketTake _ => false
  | .launchReadRetry _ => false
  | .sizeClassSelect _ => false
  | .launchAdmit _ => false
  | .clusterPlace _ _ _ => false
  | .workgroupEnd _ => false
  | .launchComplete _ => false
  | .taskStart _ => false
  | .taskRingRefill _ _ => false
  | .taskAutojoin _ => false
  | .taskAutojoinRetry _ => false
  | .preemptDecision _ => false
  | .drainBoundExpiry _ => false
  | .warpSave _ => false
  | .unitSave _ => false
  | .unitFlush _ => false
  | .unitResume _ _ _ => false
  | .pageHomeMove _ _ _ => false
  | .squeegeeScrub _ => false
  | .contextKill _ _ => false
  | .censusUpdate => false
  | .resourceFailure _ => false
  | .planeFailure _ => false
  | .thermalThrottle => false
  | .thermalTrip => false
  | .coldReset => false
  | .portLinkDown _ => false
  | .qwrite _ _ _ => false
  | .qctlEnSet _ _ _ => false
  | .qctlEnClear _ _ _ => false
  | .qctlDrain _ _ _ => false
  | .flr _ => false
  | .ctlsemAcq _ => false
  | .ctlsemRel _ => false
  | .mbdoor _ => false
  | .create _ _ => false
  | .destroy _ _ => false
  | .setroot _ _ => false
  | .inval _ _ => false
  | .grant _ _ => false
  | .share _ _ => false
  | .channel _ _ => false
  | .vfassign _ _ => false
  | .isolate _ _ => false
  | .fwupdate _ _ => false
  | .drain _ _ => false
  | .reset _ _ => false
  | .ectrWrite _ _ _ _ => false
  | .srdoneWrite _ _ _ => false
  | .injctlArm _ _ _ => false
  | .injctlDisarm _ _ _ => false
  | .registerWrite _ _ _ => false
  | .bar2Read _ _ _ => false
  | .bar2Write _ _ _ => false
  | .hostCxlMemAccess _ _ _ _ => false
  | .censusRead _ _ => false
  | .getVersion => false
  | .getCapabilities => false
  | .negotiateAlgorithms => false
  | .getDigests => false
  | .getCertificate _ _ => false
  | .challenge _ => false
  | .getMeasurements _ _ => false
  | .unsupportedRequest _ => false
  | .pldmSensorRead _ => false
  | .fruEepromRead _ _ => false
  | .vfEnable _ _ => false
  | .powerLoss => false
  | .backInvalidateResponse _ => false
  | .globalObservationResponse _ _ => false

/-- Whether the instruction is a hint (R58). -/
def Instr.isHint : Instr → Bool
  | .ximmL _ | .ximmH _ | .life _ _ | .hold _ _ | .holdRel | .scale _ _ | .mod _ _ _ _ _ _ _ | .sched _ | .schedYp _ => true
  | _ => false

/-- The word that four bytes hold, little-endian (R74). -/
def wordOfBytes (bs : List Byte) : Word := BitVec.ofNat 32 (leNat bs)

/-- Decode the first instruction of a byte string; none where fewer than four bytes are left. -/
def decodeBytes (bs : List Byte) : Option (Decoded × List Byte) :=
  if bs.length < 4 then none else some (decodeWord (wordOfBytes (bs.take 4)), bs.drop 4)

/-- The instruction that the decoder reads from a word whose bits are `w` (R74, R75). -/
def decodeTableWord (_nbits w : Nat) : Option Instr :=
  match decodeBytes (natLE 4 w) with
  | some (.instr i, _) => some i
  | _ => none

end Sys2Proof
end

