-- ==== Sys2Proof/Machine/State.lean ====
section
/-!
DEFINITION. The state of one OTH-HG4 device as plain data, the ways a step can stop, and the state right after reset.
Each field's docstring names the rule of the manual that gives it; a field marked "model" is the model's own bookkeeping.
-/
namespace Sys2Proof.Machine
open Sys2Proof

/-- The shape tag of a register (R46, R47). -/
inductive Shape where
  | u | a | g
  deriving DecidableEq, Repr, Inhabited

/-- A cabinet register: 32 lane values, the shape tag and the dead bit (R44, R54). -/
structure Reg where
  lanes : List Val
  shape : Shape
  dead : Bool
  deriving DecidableEq, Repr, Inhabited

/-- A drawer entry or a latch: 32 lane values, the stored shape, a valid bit for each lane (R44, R45), and, for a reserved
latch position or a drawer entry with a write outstanding, the pending result it waits for (R52, R53); and, for a latch, the cycle
of its die's counter at which its result has reached it (R307). -/
structure Slot where
  lanes : List Val
  shape : Shape
  valid : Mask
  pend : Option Nat
  due : Nat := 0
  deriving DecidableEq, Repr, Inhabited

/-- The fields of a pending MOD (R63). -/
structure ModF where
  chv : Bool
  arr : Bool
  bid : Nat
  chn : Nat
  scope : Nat
  sat : Bool
  rm : Nat
  deriving DecidableEq, Repr, Inhabited

/-- The hint state of a warp (R58 to R64). -/
structure Hints where
  /-- xi and its valid bit (R59). -/
  xi : Word
  xiValid : Bool
  /-- An XIMM has issued since the previous non-hint instruction (R81). -/
  xiFresh : Bool
  /-- The SCALE naming, a-scale code first (R62). -/
  scale : Option (Code × Code)
  /-- What is left of each latch position's pin, 0 when it is not pinned (R61). -/
  pins : List Nat
  /-- The marks of the last LIFE, and how many instructions it has covered; 8 when none is pending (R60). -/
  life : BitVec 24
  lifePos : Nat
  /-- The pending MOD (R63). -/
  mod : Option ModF
  /-- The pending SCHED (R64). -/
  yp : Bool
  delay : Nat
  deriving DecidableEq, Repr, Inhabited

/-- The region state of a warp (R378, R379, R391). -/
structure Region where
  opened : Bool
  flag : Bool
  rpc : DWord
  rseq : Nat
  /-- Bit n: cause n has been counted. -/
  causes : DWord
  nsvc : Bool
  sreq : Nat
  first : Word
  replays : Nat
  pcount : Nat
  mismatched : Bool
  /-- The next value of the held sequence (R379). -/
  heldSeq : Nat
  deriving DecidableEq, Repr, Inhabited

/-- One entry of a warp's spill table (R67): the packing code and the lane poison mask. -/
structure SpillEntry where
  code : Nat
  mask : Mask
  deriving DecidableEq, Repr, Inhabited

/-- What a warp waits for (R57, R72). -/
inductive WaitKind where
  | none
  /-- BAR.WAIT and BAR.SYNC: the barrier and the phase Q (R331). -/
  | bar (b : Nat) (q : Nat)
  /-- GBAR: the phase Q (R332). -/
  | gbar (q : Nat)
  /-- TWAIT: .ANY, the tag mask and the destination (R253). -/
  | twait (any : Bool) (mask : DWord) (dst : Code)
  /-- WAITV (R295). -/
  | waitv
  /-- COMMIT.R: its fallback offset (R385). -/
  | commitR (off : BitVec 17)
  /-- COMMIT.P: the die cycle counter at its start, and whether an ending EXIT stands for it (R391, R387). -/
  | commitP (start : Nat) (atExit : Bool)
  deriving DecidableEq, Repr, Inhabited

/-- The values a WAITV fixed at issue and the lanes it has finished (R72, R295). -/
structure WaitV where
  dst : Code
  cond : Nat
  acq : Bool
  scope : Nat
  pl : Nat
  chan : Nat
  timeout : Nat
  start : Nat
  offs : List DWord
  /-- The comparand of an unfinished lane, or the result of a finished one. -/
  vals : List Val
  fin : Mask
  /-- Remote tests in progress: lane and request. -/
  tests : List (Nat × Nat)
  /-- The deadline has passed and no new test starts. -/
  late : Bool
  /-- One token for each cause met so far (R215). -/
  toks : List (Cause × Word)
  /-- The first test is still to be made: at issue, and when the wait resumes (R296). -/
  first : Bool := true
  /-- The word that each lane's location of SPACE 0 held at the last test, where it translates (R295). -/
  seen : List (Option Val) := []
  /-- The cycle at which the last test of each lane began (R295). -/
  tested : List Nat := []
  deriving DecidableEq, Repr, Inhabited

/-- A lane that receives a token of a cause, with the address that met it. -/
structure LaneFault where
  lane : Nat
  cause : Cause
  place : BitVec 16
  off : DWord
  space : Nat
  xoff : DWord
  deriving DecidableEq, Repr, Inhabited

/-- A result that has not arrived (R52, R53): its destination codes, the words so far, the lanes it is for and the lanes
still missing. -/
structure PendRes where
  id : Nat
  dsts : List Code
  words : List (List Val)
  mask : Mask
  left : Mask
  shapes : List Shape
  pc : DWord
  /-- The causes that its answers brought without a token, by lane (R293, R416); their tokens are created at its arrival. -/
  faults : List LaneFault
  /-- It is an atomic, whose tokens are a flag event too (R215). -/
  flags : Bool
  /-- It is an acquire: later accesses of the warp wait for it (R222, R236); and whether of domain or system scope (R201). -/
  acq : Bool
  wideAcq : Bool
  /-- A deschedule point has passed since, so that a drawer destination stays invalid (R56). -/
  dropped : Bool
  /-- The tokens that the instruction made at issue, which its answers share (R215). -/
  toks : List (Cause × Word) := []
  /-- The cycle of the issue, and the cycles that its result takes at least (R235, R307). -/
  issued : Nat := 0
  least : Nat := 0
  /-- The swap half of VAL of a CAS with the token words of the lanes of `half`, which alone are written (R215, R227). -/
  swap : List (Code × List Val) := []
  half : Mask := 0#32
  deriving DecidableEq, Repr, Inhabited

/-- A continuation record (R38) with its own address. -/
structure TaskRec where
  addr : Nat
  entry : Nat
  frame : Nat
  join : Nat
  flags : Nat
  parent : Nat
  deriving DecidableEq, Repr, Inhabited

/-- A memory instruction that has issued and is not performed yet: an ordered access or a FENCE that must wait (R236), or a relaxed load (R222). It
holds what its issue fixed: the active mask and PC, the modifiers, its operands with their shapes, and its pending result. -/
structure Held where
  i : Instr
  res : Option Nat
  act : Mask
  pc : DWord
  rm : Nat
  scope : Nat
  chan : Nat
  xoff : DWord
  vals : List (List Val × Shape)
  /-- The lines that a store would write (R236), and the sectors of device memory that a load reads. -/
  lines : Nat
  secs : List Nat
  deriving DecidableEq, Repr, Inhabited

/-- What a warp slot is doing (R24, R39, R57). -/
inductive WarpStatus where
  | running
  /-- A task slot with no task. -/
  | idle
  | ended
  /-- Taken for a save, its unit not yet saved. -/
  | taken
  /-- A task whose AUTOJOIN is still to be made (R40, R336). -/
  | joining
  deriving DecidableEq, Repr, Inhabited

/-- A warp, resident or saved. -/
structure Warp where
  ref : WarpRef
  status : WarpStatus
  /-- The PC of each lane (R21, R71). -/
  pcs : List DWord
  exited : Mask
  /-- v0 to v239 (R44). -/
  cab : List Reg
  /-- d0 to d7. -/
  drawer : List Slot
  /-- l0 to l2. -/
  latch : List Slot
  hints : Hints
  /-- The partition register (R26). -/
  tsize : Nat
  /-- FPMODE, FPSTAT and CHAN (R70). -/
  fpmode : Word
  fpstat : Word
  chan : Word
  region : Region
  /-- 64 entries (R67). -/
  spill : List SpillEntry
  /-- D and M (R299), and the lanes of a switched issue in progress. -/
  divCount : Nat
  switchMark : DWord
  switched : Option Mask
  /-- The return stack, top first (R314). -/
  retStack : List DWord
  /-- The MPERTURB arm: element index and addend (R182). -/
  perturb : Option (Nat × Val)
  wait : WaitKind
  waitv : WaitV
  /-- The instruction word and active mask of the pending wait (R72). -/
  waitWord : Word
  waitMask : Mask
  pend : List PendRes
  /-- Its ordered access or FENCE that must wait (R236). -/
  held : Option Held := none
  /-- Its relaxed loads that are not performed yet, oldest first (R222, R275). -/
  late : List Held := []
  /-- The service request that a held fetch waits for (R198). -/
  fetchHold : Option Nat
  /-- Model: what INSTRUCTION_FETCH read last. -/
  ir : Option Decoded
  isTask : Bool
  task : Option TaskRec
  /-- The die counter when the AUTOJOIN was last refused for lack of room (R336). -/
  joinAt : Option Nat
  /-- Non-hint issues since the last deschedule point (R337). -/
  yieldCount : Nat
  /-- Its last issue was a deschedule point (R55, R57). -/
  atPoint : Bool
  quad : Nat
  /-- Constants of the launch that the warp sees: N, Gmax (R49), PRIVW, SPW (R96), p0 to p3 (R192), and the byte of SPACE 1
  at which its private area starts (R202; model). -/
  n : Nat
  gmax : Nat
  privw : Nat
  spw : Nat
  places : List (BitVec 16)
  privBase : Nat
  deriving DecidableEq, Repr, Inhabited

/-- A byte memory with poison sectors (R199): the listed bytes, strictly rising and never 0, and the poisoned sectors by
sector number with their tokens, strictly rising. An unlisted byte reads 0 (log 1). -/
structure Memory where
  cells : List Host.Cell
  poison : List (Nat × Word)
  deriving DecidableEq, Repr, Inhabited

/-- An entry of the stash mapping table (R205), with the physical 4 KiB pages it was registered at and its line states:
the lines present, and the dirty sectors of each. -/
structure SmapEntry where
  valid : Bool
  gbase : Nat
  soff : Nat
  len : Nat
  pre : Bool
  pages : List Nat
  lines : List (Nat × BitVec 4)
  /-- The owner tag of the access that last filled or wrote each line (R350). -/
  owners : List (Nat × Nat) := []
  deriving DecidableEq, Repr, Inhabited

/-- A completion tag (R243): 0 IDLE, 1 BUSY, 2 DONE; PSN; CAUSES; and the token that a refused mapping's tag carries (R206). -/
structure TagSt where
  state : Nat
  psn : Bool
  causes : Word
  tok : Option Word := none
  deriving DecidableEq, Repr, Inhabited

/-- A barrier (R330). `arr` and `last` are by member. -/
structure Bar where
  expect : Nat
  pend : Nat
  phase : Word
  arr : List (WarpRef × Mask)
  last : List (WarpRef × Word)
  deriving DecidableEq, Repr, Inhabited

/-- What an entry of the matrix queue does (R160). -/
inductive MatKind where
  | mloop | mzero | mscale | mout | mget | mput
  deriving DecidableEq, Repr, Inhabited

/-- An entry of the matrix queue (R160, R186). -/
structure MatEntry where
  id : Nat
  wg : Nat
  warp : WarpRef
  pc : DWord
  word : Word
  kind : MatKind
  slot : Nat
  fmt : Nat
  acm : Bool
  done : Nat
  begun : Bool
  rm : Nat
  sat : Bool
  a0 : Nat
  aop : Nat
  ctl : List Word
  /-- The token of a sequence that performs no step (R169). -/
  token : Option Word
  aScale : List Nat
  bScale : List Nat
  act : Mask
  rows : List Val
  vals : List Val
  perturb : Option (Nat × Val)
  /-- The pending result of an MGET. -/
  res : Nat
  /-- Flags and poison met so far. -/
  flags : Nat
  psn : Bool
  causes : DWord
  deriving DecidableEq, Repr, Inhabited

/-- A withheld or held write in a Drying Rack (R379, R380). -/
structure RackEntry where
  tag : Nat
  warp : WarpRef
  seq : Nat
  off : Option DWord
  place : BitVec 16
  poisoned : Bool
  atom : Bool
  held : Bool
  chan : Nat
  ord : Nat
  scope : Nat
  mask : Word
  pmask : BitVec 8
  token : Word
  data : List Byte
  pc : DWord
  deriving DecidableEq, Repr, Inhabited

/-- A workgroup (R19 to R33) with the core resources it holds. -/
structure Wg where
  id : Nat
  launch : Nat
  tag : Nat
  cl : Nat × Nat × Nat
  wg : Nat × Nat × Nat
  stage : Nat
  /-- Which replica of a paired launch it is, and the other one (R388). -/
  replica : Nat
  partner : Nat
  /-- die * 64 + core. -/
  core : Nat
  stash : Memory
  smap : List SmapEntry
  /-- Accumulator slots: 64 rows of 64 elements (R159). -/
  acc : List (List (List Val))
  /-- Weight slots (R159). -/
  wslot : List Memory
  accBase : Nat
  wBase : Nat
  tagBase : Nat
  tags : List TagSt
  bars : List Bar
  /-- PROGRESS (R70); the elapsed cycles of its earlier residences, and the counter of its die when this one's first instruction
  issued (R337). -/
  progress : Word
  elapsed : Nat
  began : Option Nat
  saved : Bool
  ended : Bool
  /-- While it is saved: its queue records, and the Rack entries of its warps (R184, R380). -/
  heldQueue : List MatEntry
  heldRack : List RackEntry
  /-- The prefilled mapping entries that fill again, since its resume, before it issues (R210). -/
  refill : List Nat := []
  deriving DecidableEq, Repr, Inhabited

/-- The fields of a kernel record that outlive its checks (R96). -/
structure Krec where
  entry : Nat
  codeBase : Nat
  codeSize : Nat
  n : Nat
  gmax : Nat
  taskw : Nat
  nbar : Nat
  stashk : Nat
  accSlots : Nat
  wSlots : Nat
  tags : Nat
  privw : Nat
  spw : Nat
  yieldi : Nat
  restart : Bool
  deriving DecidableEq, Repr, Inhabited

/-- The fields of a launch packet (R322). -/
structure Packet where
  flags : Nat
  krec : Nat
  gdim : Nat × Nat × Nat
  wdim : Nat × Nat × Nat
  cdim : Nat × Nat × Nat
  stages : Nat
  schedn : Nat
  doneCtr : Nat
  doneAdd : Nat
  places : List (BitVec 16)
  schedTab : Nat
  sizeAddr : Nat
  waits : List (Nat × Nat)
  pbound : Nat
  tringn : Nat
  tquota : Nat
  launchId : Nat
  tring : Nat
  hints : Nat
  deriving DecidableEq, Repr, Inhabited

/-- What a unit of a launch is doing (R337, R338): its linear cluster index, its state, and what its preemption decided. -/
inductive UnitState where
  | running | draining | saving | saved | flushing | flushed | ended
  deriving DecidableEq, Repr, Inhabited

/-- A preemption unit: a launch cluster, or the launch when it is cooperative (R337). -/
structure ClusterUnit where
  /-- Model: its number, by which an event names it. -/
  id : Nat
  cluster : Nat
  state : UnitState
  /-- Bridge-die counter at its start and at its last decision, and the estimate made then. -/
  start : Nat
  decided : Nat
  estimate : Nat
  /-- The drain ran past its bound (R338). -/
  overrun : Bool
  /-- The save was chosen past its bound (R338). -/
  late : Bool
  /-- Where its save areas lie in the save pool: offset and length (R339). -/
  area : Nat × Nat
  deriving DecidableEq, Repr, Inhabited

/-- A launch that has been admitted and has not completed (R328). -/
structure Launch where
  id : Nat
  queue : Nat
  tag : Nat
  pkt : Packet
  krec : Krec
  schedIx : Nat
  sizeWord : Word
  paired : Bool
  /-- Clusters placed so far, in linear order (R29). -/
  placed : Nat
  units : List ClusterUnit
  restarts : Nat
  missed : Nat
  /-- Task ring: records outstanding, head and tail counts (R333). -/
  outstanding : Nat
  ringHead : Nat
  ringTail : Nat
  /-- The own addresses of the records in the ring, head first (R40; model: the ring's 32 bytes hold no address). -/
  ring : List Nat
  /-- Records whose push waits for a service request, oldest first, and the request of the ring's write or read (R417). -/
  ringWait : List TaskRec
  ringReq : Option Nat
  /-- The core whose read of the ring is repeated once that request is resolved (R417). -/
  ringFor : Option Nat := none
  /-- The grid barrier of each replica (R332, R388). -/
  gbars : List Bar
  /-- Its placement hints as they were read (R322). -/
  hintList : List Byte := []
  deriving DecidableEq, Repr, Inhabited

/-- A tag that will reach DONE (R173, R180), with what its operation met. -/
structure TagDone where
  id : Nat
  wg : Nat
  tag : Nat
  psn : Bool
  causes : DWord
  warp : WarpRef
  flags : Nat
  deriving DecidableEq, Repr, Inhabited

/-- A copy in flight (R244, R255). -/
structure Copy where
  id : Nat
  wg : Nat
  warp : WarpRef
  pc : DWord
  word : Word
  xloadw : Bool
  dir : Nat
  slot : Nat
  tag : Nat
  recAddr : Nat
  args : List Word
  arr : Option Nat
  chan : Nat
  /-- The record as the copy uses it, once it is checked. -/
  record : Option (List Byte)
  /-- The next 16-byte chunk of the box in traversal order (model), and the destination sectors done (R255). -/
  cursor : Nat
  sectors : Nat
  /-- Direction 4: the index of its first write, and the writes sent (R247). -/
  idx0 : Word
  sent : Nat
  /-- The source sectors it has read, each at one point (R248), and those it has asked another node or the host for: request
  and offset. -/
  fetched : List (DWord × List Val)
  asked : List (Nat × DWord)
  psn : Bool
  causes : DWord
  /-- One token for each cause met (R215). -/
  tokens : List (Nat × Word)
  /-- The last write has been made. -/
  finished : Bool
  deriving DecidableEq, Repr, Inhabited

/-- An SMAP whose tag is BUSY (R231). -/
structure SmapJob where
  id : Nat
  wg : Nat
  warp : WarpRef
  pc : DWord
  entry : Nat
  gbase : Nat
  soff : Nat
  len : Nat
  pre : Bool
  tag : Nat
  registered : Bool
  deriving DecidableEq, Repr, Inhabited

/-- What an entry of a store queue will do when it leaves the core (R236, R260). -/
inductive StoreAct where
  /-- A write of one sector of device memory, by physical address. -/
  | mem (w : SectorWrite)
  /-- A counted write to a node (R281). -/
  | remote (node : Nat) (p : WritePacket)
  /-- A write to host memory on a port: host physical address and bytes; poisoned data. -/
  | host (port : Nat) (addr : Nat) (data : List (Nat × Byte)) (psn : Bool)
  deriving DecidableEq, Repr, Inhabited

/-- An entry of a store queue (R236). -/
structure StoreEntry where
  id : Nat
  /-- One number for the entries of one instruction (model). -/
  grp : Nat
  warp : WarpRef
  quad : Nat
  tag : Nat
  act : StoreAct
  /-- The lanes that wrote each byte of its sector, of which the byte holds the highest's (R216), for the forwarding of R260. -/
  lanes : List Mask := []
  /-- The widest scope, die or narrower, at which a release or fence has ordered it before what follows (R258, R259); 0 for none. -/
  upto : Nat := 0
  deriving DecidableEq, Repr, Inhabited

/-- A translation held in a TLB (R196): owner tag, space, 64 KiB page, and the leaf that maps it. -/
structure TlbEntry where
  tag : Nat
  space : Nat
  page : Nat
  frame : Nat
  wr : Bool
  ex : Bool
  mt : Nat
  nopeer : Bool
  deriving DecidableEq, Repr, Inhabited

/-- A core (R14). -/
structure Core where
  enabled : Bool
  queue : List MatEntry
  rack : List RackEntry
  /-- Record cache: owner tag, record address, record (R240). -/
  recCache : List (Nat × Nat × List Byte)
  /-- Task queue: launch and record (R333). -/
  taskQ : List (Nat × TaskRec)
  storeQ : List StoreEntry
  tlb : List TlbEntry
  deriving DecidableEq, Repr, Inhabited

/-- A write that some die has not applied yet (R263): its origin, its stamp and what it writes. -/
structure LogEntry where
  origin : Nat
  stamp : List Nat
  write : SectorWrite
  deriving DecidableEq, Repr, Inhabited

/-- A peer line (R201, R267): the die that holds it, node, line offset, owner tag and bytes. -/
structure PeerLine where
  die : Nat
  node : Nat
  off : Nat
  tag : Nat
  data : List Val
  deriving DecidableEq, Repr, Inhabited

/-- Device memory with the views of its five dies (R260 to R264). -/
structure DevMem where
  /-- The writes that every die has applied. -/
  base : Memory
  /-- The others, in coherence order (R262). -/
  log : List LogEntry
  /-- The applied vectors A_e (R263). -/
  vec : List (List Nat)
  peers : List PeerLine
  /-- The owner tag of each dirty line (R350). -/
  owners : List (Nat × Nat)
  deriving DecidableEq, Repr, Inhabited

/-- An error that storage holds and that the next read of the sector finds (R396; model: the physical world). `kind` is what the sector's
ordinary code makes of it (log 41). -/
structure LatentError where
  sector : Nat
  kind : ErrorKind
  /-- The 1 MiB region of the home die's stacked SRAM that holds it, 0 to 1,535; none where another array does (R12, R394). -/
  region : Option Nat := none
  /-- An L1 or the stash SRAM of a core holds it, which no scrub reads (R394, R395). -/
  inCore : Bool := false
  /-- The strong code corrects it (R394). -/
  few : Bool := false
  /-- An error of a dirty line has been detected: from then on every read of the line finds it (R397). -/
  found : Bool := false
  deriving DecidableEq, Repr, Inhabited

/-- A line that the L2 of its home die holds (R12, R200): its set and way in the die's stacked SRAM, the owner tag of the access that filled
it (R350), and whether it is encoded with the strong code (R394). -/
structure L2Line where
  die : Nat
  set : Nat
  way : Nat
  line : Nat
  tag : Nat
  strong : Bool
  deriving DecidableEq, Repr, Inhabited

/-- A word of core storage. -/
inductive WordLoc where
  /-- A lane of a cabinet register, drawer entry or latch. -/
  | reg (w : WarpRef) (c : Code) (lane : Nat)
  /-- An element of an accumulator slot of a workgroup. -/
  | acc (wg slot row col : Nat)
  /-- A sector of a weight slot of a workgroup. -/
  | weight (wg slot sector : Nat)
  /-- A word of a Drying Rack entry of a core. -/
  | rack (core k word : Nat)
  deriving DecidableEq, Repr, Inhabited

/-- An error that a word of core storage holds and that the next read of it finds (R396; model: the physical world): uncorrectable, or one that
the word's SECDED code corrects (R394). -/
structure WordError where
  loc : WordLoc
  soft : Bool := false
  deriving DecidableEq, Repr, Inhabited

/-- A kill in progress (R367): the cause; what the fault record of KIND 3 of its launches says, if there is one; the queue, launch ID, restarts and
missed units of each launch that a completion record is due for; the numbers of its SPACE 2 writes without a global-observation response; and the
bad lines whose frames are retired (R397). -/
structure Dying where
  cause : Nat
  report : Option (Nat × Nat)
  ends : List (Nat × Nat × Nat × Nat)
  seen : List Nat
  lines : List Nat
  deriving DecidableEq, Repr, Inhabited

/-- A context (R349, R356, R374, R398). -/
structure Ctx where
  state : Nat
  cause : Nat
  inject : Bool
  func : Nat
  roots : List (Option Nat)
  ectr : List Word
  eqBase : DWord
  eqEn : Bool
  eqLog2n : Nat
  eqWrite : Word
  eqRead : Word
  eqLost : Nat
  spBase : DWord
  spSize : Word
  csBase : DWord
  csEn : Bool
  csPair : Bool
  csSeq : Word
  csDrop : Nat
  srSeq : Nat
  srDone : Nat
  injArm : Bool
  injUnc : Bool
  injLevel : Nat
  injAddr : DWord
  injSector : Nat
  /-- Service requests that are not resolved: space, page and sequence (R195). -/
  misses : List (Nat × Nat × Nat)
  /-- Bytes of SPACE 1 given to private areas (R202; model). -/
  privUsed : Nat
  /-- Its kill has begun, and requests of it are outstanding (R367). -/
  dying : Option Dying := none
  deriving DecidableEq, Repr, Inhabited

/-- A selection of a size-class entry that stands for a queue (R324): table, index, size word, grid and kernel record. -/
structure Select where
  tab : Nat
  ix : Nat
  word : Word
  gdim : Nat × Nat × Nat
  kaddr : Nat
  deriving DecidableEq, Repr, Inhabited

/-- A packet at the head of a queue that has been read and checked (R323, R324, R325), with its placement hints (R322) and the size word of a
phase-start head once it has been read (R37). -/
structure Head where
  pkt : Packet
  krec : Option Krec
  met : List Bool
  chosen : Bool
  schedIx : Nat
  sizeWord : Word
  gdim : Nat × Nat × Nat
  kaddr : Nat
  hintList : List Byte := []
  size : Option Word := none
  deriving DecidableEq, Repr, Inhabited

/-- A launch queue (R319). -/
structure Queue where
  base : DWord
  place : BitVec 16
  en : Bool
  drain : Bool
  ctx : Nat
  weight : Nat
  log2n : Nat
  cls : Nat
  widx : Word
  ridx : Word
  /-- Drain mark (R341). -/
  mark : Option Word
  head : Option Head
  /-- The packet at RIDX, once it has been read (R319). -/
  raw : Option (List Byte)
  /-- A read of the launch engine waits for this service request; and the read that is repeated, with its page (R417): `readKey`. -/
  hold : Option (Nat × Nat)
  retried : Option Nat
  /-- The read of a ring in SPACE 2 waits for the host. -/
  asked : Option Nat
  selects : List Select
  /-- The physical function that claimed a pool queue (R353). -/
  claim : Option Nat
  /-- The dependences of the packet at RIDX that have been met, for the context that served it, which stay met (R325). -/
  metBy : Option (Nat × List Bool) := none
  deriving DecidableEq, Repr, Inhabited

/-- A send channel (R278, R279): destination node, channel, owner tag, counter. -/
structure SendChan where
  node : Nat
  chan : Nat
  tag : Nat
  count : Word
  deriving DecidableEq, Repr, Inhabited

/-- A receive channel: source node, channel, owner tag, counter A, hold time in microseconds, recorded cause with the AUX word of
its token (R279, R282, R376). -/
structure RecvChan where
  node : Nat
  chan : Nat
  tag : Nat
  count : Word
  hold : Nat
  cause : Option (Cause × Word)
  deriving DecidableEq, Repr, Inhabited

/-- A release flag in the Easel, or waiting for service after its count was met (R285, R286). -/
structure HeldFlag where
  id : Nat
  pkt : FlagPacket
  entered : Nat
  /-- Its count is met, and its address waits for this service request. -/
  matched : Option Nat
  /-- It expired, and is written as poison (R288). -/
  expired : Bool
  deriving DecidableEq, Repr, Inhabited

/-- A flag that an STC will send (R284). -/
structure FlagSend where
  id : Nat
  warp : WarpRef
  node : Nat
  pkt : FlagPacket
  deriving DecidableEq, Repr, Inhabited

/-- What a lane of a remote or host request waits for. -/
structure Request where
  id : Nat
  warp : WarpRef
  /-- The pending result, or none for a WAITV test or a copy. -/
  res : Option Nat
  /-- The copy that reads a source sector. -/
  copy : Option Nat
  /-- The launch queue that reads its ring. -/
  queue : Option Nat
  lanes : List Nat
  node : Nat
  off : DWord
  /-- The offset as the lane formed it, before any node is taken from it. -/
  raw : DWord
  place : BitVec 16
  size : Nat
  /-- Sub-word load: bytes and sign extension; atomic: words of the old value wanted. -/
  sub : Option (Nat × Bool)
  /-- The operation, for an atomic. -/
  atom : Option AtomOp
  issued : Nat
  die : Nat
  tag : Nat
  pc : DWord
  /-- The held sequence at issue, for a load of a paired launch (R389). -/
  heldSeq : Nat
  /-- The tokens that the answers of one ATOMN share (R215, R269). -/
  toks : List (Cause × Word) := []
  deriving DecidableEq, Repr, Inhabited

/-- What the device sends to the outside (packets, responses, host transactions). -/
inductive OutMsg where
  | write (node : Nat) (p : WritePacket)
  | flag (node : Nat) (p : FlagPacket)
  | loss (node : Nat) (n : LossNotice)
  | request (node : Nat) (r : RemoteRequest)
  | reply (node : Nat) (req : Nat) (r : Reply)
  /-- A transaction to the host carries the requester ID of a function, here its number (R320, R351). -/
  | hostWrite (func port addr : Nat) (data : List (Nat × Byte)) (psn : Bool)
  /-- The low nibble of a byte of host memory, merged at its home (R245). -/
  | hostMerge (func port addr : Nat) (b : Byte)
  | hostRead (func port req addr size : Nat)
  | hostAtom (func port req addr : Nat) (a : AtomOp)
  | hostLineGet (func port req addr : Nat)
  | hostLinePut (func port addr : Nat) (data : List Byte)
  | backInvalidate (job line : Nat)
  /-- Completion of a host access: status 0 successful, 1 Unsupported Request, 2 Completer Abort; data; poisoned (R355). -/
  | completion (status : Nat) (data : List Byte) (psn : Bool)
  /-- A response of the management port, or of DOE on a function: request code and bytes (R366, R402, R403, R18). -/
  | mgmt (via : Option Nat) (code : Nat) (data : List Byte)
  deriving DecidableEq, Repr, Inhabited

/-- What carries a message to another node. -/
def OutMsg.isPacket : OutMsg → Bool
  | .write _ _ | .flag _ _ | .loss _ _ | .request _ _ | .reply _ _ _ => true
  | _ => false

/-- How a packet travels (R276, R277): its number, the plane and the path chosen for it, 18 where no plane is left, and the bridge die's
counter when it left. -/
structure Route where
  id : Nat
  plane : Nat
  path : Nat
  sent : Nat
  deriving DecidableEq, Repr, Inhabited

/-- The bridge die's fabric state (R278 to R293). -/
structure Fabric where
  node : Nat
  send : List SendChan
  recv : List RecvChan
  /-- The counters, other than 0, of send and receive channels that no context owns: node, channel, count (R278). -/
  sendIdle : List (Nat × Nat × Word) := []
  recvIdle : List (Nat × Nat × Word) := []
  easel : List HeldFlag
  /-- Flags whose count is met and whose address waits for service: they take no Easel entry (R285, R286). -/
  waiting : List HeldFlag := []
  /-- Arrivals on the flag lane that the links hold back while the Easel is full, oldest first (R287). -/
  link : List Instr
  sends : List FlagSend
  requests : List Request
  /-- Packets and messages that have left, each with the model's number. -/
  out : List (Nat × OutMsg)
  routes : List Route := []
  deriving DecidableEq, Repr, Inhabited

/-- A PCI Express function (R353, R355, R358). -/
structure Func where
  /-- A virtual function: bound to a port by VFASSIGN. -/
  port : Option Nat
  clusters : DWord
  ways : BitVec 16
  quota : Nat
  queues : List Nat
  isolated : Bool
  resetting : Bool
  hctx : Nat
  mbreq : List Word
  busy : Bool
  status : Nat
  result : Word
  deriving DecidableEq, Repr, Inhabited

/-- A host port (R268, R353, R362). -/
structure Port where
  cxl : Bool
  vfEnable : Bool
  /-- TotalVFs of its SR-IOV capability. -/
  totalVfs : Nat := 16
  deriving DecidableEq, Repr, Inhabited

/-- Counts the census gives for a die (R402), with the regions of its stacked SRAM on the strong code, and the corrections of its regions within
the last 2^32 cycles, each with the die's counter then (R394). -/
structure DieHealth where
  strong : List Nat
  corrections : List (Nat × Nat)
  quarantined : Nat
  retired : Nat
  corrected : Nat
  uncorrectable : Nat
  injected : Nat
  deriving DecidableEq, Repr, Inhabited

/-- A firmware image in flash (R365): the running one, or none for the one the device was made with; the staged one, in the inactive
slot; the fused security version number; and whether the image that boots next is damaged, so that its check fails (model: the physical world). -/
structure Flash where
  image : Option (List Byte)
  staged : Option (List Byte)
  svn : Nat
  damaged : Bool
  deriving DecidableEq, Repr, Inhabited

/-- The Safelight, health, power and the host's side of the device (R351 to R371, R394 to R403). -/
structure Service where
  powered : Bool
  /-- The Safelight image passed its check, so that the Safelight runs (R18, R365). -/
  safelight : Bool := true
  /-- The command-processor image passed its check (R365). -/
  cpOk : Bool
  stepping : Nat
  /-- 0 NOMINAL, 1 WORN, 2 DEGRADED, 3 OUT (R402). -/
  health : Nat
  replace : Bool
  planes : BitVec 18
  /-- The links that have failed, each by its two dies (R11, R401). -/
  failedLinks : List (Nat × Nat)
  failedChans : List (Nat × Nat)
  dies : List DieHealth
  /-- Hardware clusters that have failed (R401). -/
  failedClusters : List Nat
  throttled : Bool
  cgen : Word
  /-- The shadow copy of the census window, word by word (R402). -/
  shadow : List Word
  /-- Frames with an entry other than the reset value: frame, OWNER, SHARE (R351). -/
  frames : List (Nat × Nat × BitVec 18)
  /-- Frames recorded as holding a LINE_POISON sector (R358, R396). -/
  lpFrames : List Nat
  /-- The control semaphore: 0 none, 1 port A, 2 port B (R355). -/
  holder : Nat
  /-- Functions that lost CTLSEM with a request in progress, which completes (R362). -/
  grace : List Nat := []
  /-- Functions whose reset started while the request at the head of the mailbox was in progress, which completes first (R371). -/
  early : List Nat := []
  funcs : List Func
  ports : List Port
  /-- Mailbox requests waiting, oldest first: function and words (R357). -/
  mailbox : List (Nat × List Word)
  /-- The images of the Safelight and of the command processor (R365). -/
  slImage : Flash
  cpImage : Flash
  /-- Lines the host may cache, oldest first (R268), and back-invalidations waiting for a response. -/
  directory : List Nat
  backInv : List (Nat × Nat)
  /-- SPACE 2 writes without a global-observation response (R268): number and warp. -/
  observing : List (Nat × WarpRef)
  errors : List LatentError
  /-- Model: a read on a die for the context that has met an error in its own dirty line in the step at hand, and the address: the step delivers
nothing (R411). -/
  lost : Option (Nat × Nat × Nat) := none
  wordErrors : List WordError
  /-- The quarantined slots of L2, each by die, set and way (R397). -/
  quarantine : List (Nat × Nat × Nat) := []
  deriving DecidableEq, Repr, Inhabited

/-- Where the command processor stands in its rounds (R328): the class it serves and the launches it may still admit from it, and for
each class the queue it last served; and the launches admitted from each queue of the class it serves in this round. -/
structure Rounds where
  cls : Nat
  left : Nat
  last : List Nat
  used : List (Nat × Nat)
  deriving DecidableEq, Repr, Inhabited

/-- Model: something that the outside does; of a management request, the path by which it comes (R366; log 3). -/
structure Input where
  i : Instr
  via : Option Nat := none
  deriving DecidableEq, Repr, Inhabited

/-- The whole device. -/
structure State where
  /-- The warp that issues next (model: which of the resident warps it is). -/
  warp : Warp
  /-- Every other warp, resident or saved. -/
  parked : List Warp
  wgs : List Wg
  launches : List Launch
  /-- 256 cores, die * 64 + core (R12). -/
  cores : List Core
  /-- The L2 TLB of each of the 64 hardware clusters (R196). -/
  l2tlb : List (List TlbEntry)
  mem : DevMem
  /-- The lines that the L2s hold (R200). -/
  l2 : List L2Line := []
  /-- 64 contexts (R349). -/
  ctxs : List Ctx
  /-- 256 launch queues (R319). -/
  queues : List Queue
  rounds : Rounds
  copies : List Copy
  smaps : List SmapJob
  tagDones : List TagDone
  fabric : Fabric
  svc : Service
  /-- The cycle counters of dies 0 to 3 and of the bridge die (R318). -/
  ctrs : List Nat
  /-- Model: steps so far, which number the free values (log 2, 3). -/
  tick : Nat
  /-- Model: for each die, the cycle of the last ownership request that its L2 took, its place in the cycle and its line (R261; log 44). -/
  served : List (Nat × Nat × Nat) := []
  /-- Model: the next relaxed load is performed later than it issues (R222, R275; log 72). -/
  slack : Bool := false
  /-- Model: the next number for a job, a request, a launch or a workgroup. -/
  nextId : Nat
  /-- Model: what the outside does next, oldest first (log 3). -/
  inputs : List Input
  /-- Model: the path of the management request at hand: none the management port, else DOE of a function (R366; log 3). -/
  via : Option Nat
  deriving DecidableEq, Repr

/-- Why a step stops the machine. -/
inductive Fault where
  /-- Raised by `step` when the module has no power and nothing waits from outside: R18 gives it no behaviour of its own
  until power returns. Safe: the machine stops where the hardware does nothing. -/
  | unpowered
  deriving DecidableEq, Repr

/-- Why an instruction has no meaning. -/
inductive Refusal where
  /-- Raised by an arm of exec whose instruction has no meaning yet. Safe: the machine stops where the hardware goes on. -/
  | notModelled (mnemonic : String)
  deriving DecidableEq, Repr

/-- The outcome of an instruction or a step. -/
abbrev Out := Host.Outcome State Fault Refusal

/-! ## Reset -/

/-- A register of R25: 0, shape U, not dead. -/
def Reg.fresh : Reg := { lanes := splat Val.zero, shape := .u, dead := false }
/-- An invalid drawer entry or latch (R25). -/
def Slot.fresh : Slot := { lanes := splat Val.zero, shape := .u, valid := 0#32, pend := none }
/-- No hint is pending (R25, R56). -/
def Hints.fresh : Hints :=
  { xi := 0#32, xiValid := false, xiFresh := false, scale := none, pins := [0, 0, 0], life := 0#24, lifePos := 8, mod := none,
    yp := false, delay := 0 }
/-- A closed region with nothing counted (R378). -/
def Region.fresh : Region :=
  { opened := false, flag := false, rpc := 0#64, rseq := 0, causes := 0#64, nsvc := false, sreq := 0, first := 0#32,
    replays := 0, pcount := 0, mismatched := false, heldSeq := 0 }
/-- No WAITV is pending. -/
def WaitV.fresh : WaitV :=
  { dst := 0xFB#8, cond := 0, acq := false, scope := 0, pl := 0, chan := 0, timeout := 0, start := 0, offs := [], vals := [],
    fin := 0#32, tests := [], late := false, toks := [], first := true, seen := [] }

/-- The warp of R25 at PC `pc`, with the lanes of `exited` exited. -/
def Warp.fresh (ref : WarpRef) (pc : DWord) (exited : Mask) : Warp :=
  { ref := ref, status := .running, pcs := List.replicate 32 pc, exited := exited, cab := List.replicate 240 Reg.fresh,
    drawer := List.replicate 8 Slot.fresh, latch := List.replicate 3 Slot.fresh, hints := Hints.fresh, tsize := 32,
    fpmode := 1#32, fpstat := 0#32, chan := 0#32, region := Region.fresh,
    spill := List.replicate 64 { code := 3, mask := 0#32 }, divCount := 0, switchMark := 0#64, switched := none,
    retStack := [], perturb := none, wait := .none, waitv := WaitV.fresh, waitWord := 0#32, waitMask := 0#32, pend := [],
    fetchHold := none, ir := none, isTask := false, task := none, joinAt := none, yieldCount := 0, atPoint := false,
    quad := 0, n := 240, gmax := 240,
    privw := 0, spw := 0, places := List.replicate 4 0#16, privBase := 0 }

/-- The warp that stands in the issuing place while no launch has been placed: every lane exited (log 7). -/
def Warp.empty : Warp := { Warp.fresh { wg := 0, warp := 0 } 0#64 fullMask with status := .ended }

/-- A memory that lists nothing. -/
def Memory.empty : Memory := { cells := [], poison := [] }

/-- A core after reset (R403), enabled (log 9). -/
def Core.fresh : Core := { enabled := true, queue := [], rack := [], recCache := [], taskQ := [], storeQ := [], tlb := [] }

/-- Device memory with nothing listed. -/
def DevMem.fresh : DevMem :=
  { base := Memory.empty, log := [], vec := List.replicate 5 [0, 0, 0, 0, 0], peers := [], owners := [] }

/-- A free context (R356, R374, R398). -/
def Ctx.fresh : Ctx :=
  { state := 0, cause := 0, inject := false, func := 0, roots := [none, none, none], ectr := List.replicate 64 0#32,
    eqBase := 0#64, eqEn := false, eqLog2n := 4, eqWrite := 0#32, eqRead := 0#32, eqLost := 0, spBase := 0#64, spSize := 0#32,
    csBase := 0#64, csEn := false, csPair := false, csSeq := 0#32, csDrop := 0, srSeq := 0, srDone := 0,
    injArm := false, injUnc := false, injLevel := 0, injAddr := 0#64, injSector := 0, misses := [], privUsed := 0 }

/-- A queue after reset (R319). -/
def Queue.fresh : Queue :=
  { base := 0#64, place := 0#16, en := false, drain := false, ctx := 0, weight := 1, log2n := 4, cls := 2, widx := 0#32,
    ridx := 0#32, mark := none, head := none, raw := none, hold := none, retried := none, asked := none, selects := [], claim := none }

/-- A function after reset (R355): functions 0 and 1 are bound to ports A and B, a virtual function to none. -/
def Func.fresh (port : Option Nat) : Func :=
  { port := port, clusters := 0#64, ways := 0#16, quota := 0, queues := [], isolated := false, resetting := false, hctx := 0,
    mbreq := List.replicate 16 0#32, busy := false, status := 0, result := 0#32 }

/-- A die with nothing counted (R402). -/
def DieHealth.fresh : DieHealth :=
  { strong := [], corrections := [], quarantined := 0, retired := 0, corrected := 0, uncorrectable := 0, injected := 0 }

/-- The fabric after reset: node number 0 (log 7), no channel assigned. -/
def Fabric.fresh : Fabric := { node := 0, send := [], recv := [], easel := [], link := [], sends := [], requests := [], out := [] }

/-- The image that a device is made with, which is whole, and fused SVN 0 (log 7). -/
def Flash.fresh : Flash := { image := none, staged := none, svn := 0, damaged := false }

/-- The Safelight and the service state after reset: the ports run PCI Express (log 63). -/
def Service.fresh : Service :=
  { powered := true, cpOk := true, stepping := 0, health := 0, replace := false, planes := 0#18, failedLinks := [],
    failedChans := [], dies := List.replicate 4 DieHealth.fresh, failedClusters := [], throttled := false, cgen := 0#32,
    shadow := [], frames := [], lpFrames := [], holder := 0,
    funcs := Func.fresh (some 0) :: Func.fresh (some 1) :: List.replicate 16 (Func.fresh none),
    ports := List.replicate 2 { cxl := false, vfEnable := false }, mailbox := [], slImage := Flash.fresh,
    cpImage := Flash.fresh, directory := [], backInv := [], observing := [], errors := [], wordErrors := [] }

/-- The machine right after reset (R403): no context, no launch, no workgroup, memory with nothing listed. -/
def State.reset : State :=
  { warp := Warp.empty, parked := [], wgs := [], launches := [], cores := List.replicate 256 Core.fresh,
    l2tlb := List.replicate 64 [], mem := DevMem.fresh,
    -- the firmware context is live from boot (R349); the program contexts are free
    ctxs := { Ctx.fresh with state := 1, func := 29 } :: List.replicate 63 Ctx.fresh,
    queues := List.replicate 256 Queue.fresh, rounds := { cls := 0, left := 8, last := List.replicate 4 255, used := [] }, copies := [], smaps := [], tagDones := [], fabric := Fabric.fresh,
    svc := Service.fresh, ctrs := [0, 0, 0, 0, 0], tick := 0, nextId := 1, inputs := [], via := none }

end Sys2Proof.Machine
end

