-- ==== Sys2Proof/Machine/Memory.lean ====
section
/-!
DEFINITION. Byte memories with poison sectors (R199), and device memory with the views of the five dies (R260 to R264).
-/
namespace Sys2Proof.Machine
open Sys2Proof

/-! ## One memory -/

/-- The byte at an address of a cell list; an unlisted address reads 0 (log 1). -/
def cellAt : List Host.Cell → Nat → Byte
  | [], _ => 0#8
  | (a, b) :: t, x => if x = a then b else if x < a then 0#8 else cellAt t x

/-- Write one byte, keeping the canonical form: writing 0 removes the entry. -/
def setCell : List Host.Cell → Nat → Byte → List Host.Cell
  | [], x, v => if v = 0#8 then [] else [(x, v)]
  | (a, b) :: t, x, v =>
    if x < a then (if v = 0#8 then (a, b) :: t else (x, v) :: (a, b) :: t)
    else if x = a then (if v = 0#8 then t else (x, v) :: t)
    else (a, b) :: setCell t x v

/-- The token of a sector, or none where it is clean. -/
def tokenAt : List (Nat × Word) → Nat → Option Word
  | [], _ => none
  | (a, t) :: r, x => if x = a then some t else if x < a then none else tokenAt r x

/-- Make a sector poisoned with a token, or clean. -/
def setToken : List (Nat × Word) → Nat → Option Word → List (Nat × Word)
  | [], x, v => match v with
    | none => []
    | some t => [(x, t)]
  | (a, b) :: r, x, v =>
    if x < a then (match v with
      | none => (a, b) :: r
      | some t => (x, t) :: (a, b) :: r)
    else if x = a then (match v with
      | none => r
      | some t => (x, t) :: r)
    else (a, b) :: setToken r x v

/-- Whether the addresses of a cell list rise strictly above `lo` and no listed byte is 0. -/
def cellsWf : Option Nat → List Host.Cell → Bool
  | _, [] => true
  | lo, (a, b) :: t => (match lo with
      | none => true
      | some l => decide (l < a)) && b != 0#8 && cellsWf (some a) t

/-- Whether the sector numbers of a poison list rise strictly above `lo`. -/
def tokensWf : Option Nat → List (Nat × Word) → Bool
  | _, [] => true
  | lo, (a, _) :: t => (match lo with
      | none => true
      | some l => decide (l < a)) && tokensWf (some a) t

/-- The canonical form of a memory. -/
def Memory.wf (m : Memory) : Bool := cellsWf none m.cells && tokensWf none m.poison

/-- The byte at an address. -/
def Memory.byte (m : Memory) (a : Nat) : Byte := cellAt m.cells a
/-- The token of the sector that holds an address, or none (R199). -/
def Memory.token (m : Memory) (a : Nat) : Option Word := tokenAt m.poison (a / 32)
/-- `n` bytes from an address up. -/
def Memory.bytes (m : Memory) (a n : Nat) : List Byte := (List.range n).map fun i => m.byte (a + i)
/-- The little-endian number in `n` bytes. -/
def Memory.nat (m : Memory) (a n : Nat) : Nat := leNat (m.bytes a n)
/-- Write one byte. -/
def Memory.setByte (m : Memory) (a : Nat) (v : Byte) : Memory := { m with cells := setCell m.cells a v }
/-- Write bytes from an address up, whatever the sectors hold. -/
def Memory.setBytes (m : Memory) (a : Nat) : List Byte → Memory
  | [] => m
  | b :: bs => (m.setByte a b).setBytes (a + 1) bs
/-- Poison or clean the sector that holds an address. -/
def Memory.mark (m : Memory) (a : Nat) (t : Option Word) : Memory := { m with poison := setToken m.poison (a / 32) t }

/-- The bytes of a sector write that its mask selects, written in rising order; of those in `half` only the low nibble is written. -/
def Memory.maskedBytes (m : Memory) (a : Nat) (mask half : Word) : Nat → List Byte → Memory
  | _, [] => m
  | i, b :: bs =>
    (if mask.getLsbD i then m.setByte (a + i) (if half.getLsbD i then (b &&& 0x0F#8) ||| (m.byte (a + i) &&& 0xF0#8) else b) else m).maskedBytes
      a mask half (i + 1) bs

/-- A sector write (R199): a poison write poisons the sector; a whole clean write cleans it; a partial write to a poisoned
sector, one that writes half of a byte among them (R245), leaves it as it is. -/
def Memory.apply (m : Memory) (w : SectorWrite) : Memory :=
  match w.poison with
  | some t => m.mark w.addr (some t)
  | none =>
    if w.mask = 0xFFFFFFFF#32 ∧ w.half = 0#32 then (m.maskedBytes w.addr w.mask w.half 0 w.data).mark w.addr none
    else match m.token w.addr with
      | some _ => m
      | none => m.maskedBytes w.addr w.mask w.half 0 w.data

/-- A word as a lane reads it: the sector's token where the sector is poisoned (R199). -/
def Memory.word (m : Memory) (a : Nat) : Val :=
  match m.token a with
  | some t => Val.poison t
  | none => Val.clean (BitVec.ofNat 32 (m.nat a 4))

/-- A sector write of `bs` at byte `a`, all in one sector. -/
def sectorBytes (a : Nat) (bs : List Byte) : SectorWrite :=
  let k := a % 32
  { addr := a - k
    mask := BitVec.ofNat 32 ((2 ^ bs.length - 1) * 2 ^ k)
    data := List.replicate k 0#8 ++ bs ++ List.replicate (32 - k - bs.length) 0#8
    poison := none }

/-- A write that makes the sector of byte `a` a poison sector. -/
def sectorPoison (a : Nat) (t : Word) : SectorWrite :=
  { addr := a - a % 32, mask := 0#32, data := [], poison := some t }

/-- The sector writes of a run of bytes that may cross sectors. `fuel` bounds their number. -/
def sectorRun : Nat → Nat → List Byte → List SectorWrite
  | 0, _, _ => []
  | fuel + 1, a, bs =>
    if bs.isEmpty then [] else
      let k := 32 - a % 32
      sectorBytes a (bs.take k) :: sectorRun fuel (a + k) (bs.drop k)

/-- The little-endian number in `n` bytes of a byte string from offset `o`. -/
def numAt (bs : List Byte) (o n : Nat) : Nat := leNat ((bs.drop o).take n)

/-! ## Views of device memory (R260 to R264) -/

/-- The count of die `k` in the applied vector of die `e`. -/
def DevMem.count (dm : DevMem) (e k : Nat) : Nat := (dm.vec.getD e []).getD k 0
/-- Whether die `e` has applied a write of the log. -/
def DevMem.hasApplied (dm : DevMem) (e : Nat) (l : LogEntry) : Bool := decide (l.stamp.getD l.origin 0 ≤ dm.count e l.origin)
/-- The view of die `e`: the writes it has applied, in coherence order (R260, R262). -/
def DevMem.view (dm : DevMem) (e : Nat) : Memory :=
  dm.log.foldl (fun m l => if dm.hasApplied e l then m.apply l.write else m) dm.base

/-- Drop from the front of the log the writes that every die has applied. -/
def retireLog (vec : List (List Nat)) : Memory → List LogEntry → Memory × List LogEntry
  | m, [] => (m, [])
  | m, l :: ls =>
    if (List.range 5).all (fun e => decide (l.stamp.getD l.origin 0 ≤ (vec.getD e []).getD l.origin 0)) then
      retireLog vec (m.apply l.write) ls
    else (m, l :: ls)
/-- Retire what every die has applied. -/
def DevMem.retire (dm : DevMem) : DevMem :=
  let r := retireLog dm.vec dm.base dm.log
  { dm with base := r.1, log := r.2 }

/-- Record that die `e` has applied a write. -/
def noteApplied (e : Nat) (vec : List (List Nat)) (l : LogEntry) : List (List Nat) :=
  updAt vec e (fun a => updAt a l.origin (fun n => max n (l.stamp.getD l.origin 0)))

/-- Die `e` applies the first `n` writes of the log, in log order, which keeps R263 and R262. -/
def DevMem.applyPrefix (dm : DevMem) (e n : Nat) : DevMem :=
  { dm with vec := (dm.log.take n).foldl (noteApplied e) dm.vec }

/-- One more than the place of the last write to a sector that die `e` has not applied, or 0. -/
def DevMem.behind (dm : DevMem) (e sector : Nat) : Nat :=
  ((List.range dm.log.length).filter (fun i => match dm.log[i]? with
    | some l => l.write.addr / 32 == sector && !dm.hasApplied e l
    | none => false)).foldl (fun _ i => i + 1) 0

/-- Die `e` catches up with every write to a sector, so that it reads and writes at the end of its coherence order (R262). -/
def DevMem.catchUp (dm : DevMem) (e a : Nat) : DevMem := dm.applyPrefix e (dm.behind e (a / 32))

/-- Every die applies every write of the log. -/
def DevMem.sync (dm : DevMem) : DevMem :=
  ((List.range 5).foldl (fun d e => d.applyPrefix e d.log.length) dm).retire

/-- A write enters the view of its origin die and takes its stamp (R263). -/
def DevMem.enter (dm : DevMem) (s : Nat) (w : SectorWrite) : DevMem :=
  let dm := dm.catchUp s w.addr
  let stamp := updAt (dm.vec.getD s []) s (· + 1)
  { dm with log := dm.log ++ [{ origin := s, stamp := stamp, write := w }], vec := updAt dm.vec s (fun _ => stamp) }

/-- Whether die `e` may apply write `k` of the log now (R262, R263). -/
def DevMem.mayApply (dm : DevMem) (e k : Nat) : Bool :=
  match dm.log[k]? with
  | none => false
  | some l =>
    e != l.origin && decide (dm.count e l.origin + 1 = l.stamp.getD l.origin 0)
      && (List.range 5).all (fun j => j == l.origin || decide (l.stamp.getD j 0 ≤ dm.count e j))
      && (dm.log.take k).all (fun p => p.write.addr != l.write.addr || dm.hasApplied e p)

/-- Die `e` applies write `k` (R263). -/
def DevMem.applyOne (dm : DevMem) (e k : Nat) : DevMem :=
  match dm.log[k]? with
  | none => dm
  | some l => { dm with vec := noteApplied e dm.vec l }.retire

end Sys2Proof.Machine
end

