-- ==== Sys2Proof/Machine/Flags.lean ====
section
/-!
DEFINITION. The status flags of FPSTAT (R70, R112) and integer saturation (R99, R119).
-/
namespace Sys2Proof.Machine
open Sys2Proof

/-- A set of status flags, in the bit order of FPSTAT (R70). -/
abbrev Flags := BitVec 6
/-- Invalid operation. -/
def flNV : Flags := 0x01#6
/-- Division by zero. -/
def flDZ : Flags := 0x02#6
/-- Overflow. -/
def flOF : Flags := 0x04#6
/-- Underflow. -/
def flUF : Flags := 0x08#6
/-- Inexact. -/
def flNX : Flags := 0x10#6
/-- A result was saturated. -/
def flSAT : Flags := 0x20#6
/-- The flag if the condition holds. -/
def flIf (c : Bool) (f : Flags) : Flags := if c then f else 0#6

/-- FPSTAT after flags are ORed in (R112). -/
def orFlags (fpstat : Word) (f : Flags) : Word := fpstat ||| f.setWidth 32

/-- An exact integer clamped to lo..hi, and whether that changed it (R99). -/
def clampInt (x lo hi : Int) : Int × Bool :=
  if x < lo then (lo, true) else if hi < x then (hi, true) else (x, false)

/-- Trunc32 (R10). -/
def trunc32 (x : Int) : Word := BitVec.ofInt 32 x

/-- Ext(x) of R119: signed for V = 0, natural for V = 1. -/
def ext (v : BitVec 1) (x : Word) : Int := if v = 0#1 then x.toInt else (x.toNat : Int)

/-- Res(x) of R119: wrapped without SAT; clamped to the range of V with SAT, a clamp setting the SAT flag. -/
def resInt (sat : Bool) (v : BitVec 1) (x : Int) : Word × Flags :=
  if sat then
    let r := if v = 0#1 then clampInt x (-(2 ^ 31)) (2 ^ 31 - 1) else clampInt x 0 (2 ^ 32 - 1)
    (trunc32 r.1, flIf r.2 flSAT)
  else (trunc32 x, 0#6)

end Sys2Proof.Machine
end

