-- ==== Sys2Proof/Machine/Float.lean ====
section
/-!
DEFINITION. Floating-point formats, rounding, conversions and exact sums (R99 to R116, R138 to R146).
Every value is an exact dyadic m * 2^e until its one rounding.
-/
namespace Sys2Proof.Machine
open Sys2Proof

/-- A floating-point format (R100): field widths, bias, and whether all-ones exponents are infinity and NaN (R101). -/
structure Fmt where
  eb : Nat
  mb : Nat
  bias : Nat
  ieee : Bool
  deriving DecidableEq, Repr, Inhabited

/-- Bits of a format. -/
def Fmt.width (f : Fmt) : Nat := 1 + f.eb + f.mb
/-- FP32 (R100). -/
def fp32 : Fmt := { eb := 8, mb := 23, bias := 127, ieee := true }
/-- FP16 (R100). -/
def fp16 : Fmt := { eb := 5, mb := 10, bias := 15, ieee := true }
/-- BF16 (R100). -/
def bf16 : Fmt := { eb := 8, mb := 7, bias := 127, ieee := true }
/-- F8B (R100). -/
def f8b : Fmt := { eb := 5, mb := 2, bias := 15, ieee := true }
/-- F8A (R101). -/
def f8a : Fmt := { eb := 4, mb := 3, bias := 7, ieee := false }
/-- F4 (R101). -/
def f4 : Fmt := { eb := 2, mb := 1, bias := 1, ieee := false }

/-- What a pattern stands for (R100, R101). -/
inductive FVal where
  | nan (sig : Bool)
  | nar
  | inf (neg : Bool)
  /-- (-1)^neg * m * 2^e. -/
  | fin (neg : Bool) (m : Nat) (e : Int)
  deriving DecidableEq, Repr, Inhabited

/-- The value of a pattern (R100, R101). -/
def Fmt.decode (f : Fmt) (p : Nat) : FVal :=
  let s := p / 2 ^ (f.eb + f.mb) % 2 == 1
  let e := p / 2 ^ f.mb % 2 ^ f.eb
  let m := p % 2 ^ f.mb
  if f.ieee && e == 2 ^ f.eb - 1 then (if m = 0 then .inf s else .nan (m < 2 ^ (f.mb - 1)))
  else if e = 0 then (if !f.ieee && s && m == 0 then .nar else .fin s m (1 - (f.bias : Int) - f.mb))
  else .fin s (2 ^ f.mb + m) ((e : Int) - f.bias - f.mb)

/-- Whether a pattern is subnormal. -/
def Fmt.subnormal (f : Fmt) (p : Nat) : Bool := p / 2 ^ f.mb % 2 ^ f.eb == 0 && p % 2 ^ f.mb != 0

/-- A pattern with a subnormal read as zero of the same sign under FTZ (R111). -/
def Fmt.flush (f : Fmt) (ftz : Bool) (p : Nat) : Nat :=
  if ftz && f.subnormal p then p / 2 ^ (f.eb + f.mb) * 2 ^ (f.eb + f.mb) else p

/-- The sign bit as a number. -/
def Fmt.signBit (f : Fmt) (neg : Bool) : Nat := if neg then 2 ^ (f.eb + f.mb) else 0
/-- Infinity of a sign. -/
def Fmt.infinity (f : Fmt) (neg : Bool) : Nat := f.signBit neg + (2 ^ f.eb - 1) * 2 ^ f.mb
/-- The largest finite value of a sign. -/
def Fmt.largest (f : Fmt) (neg : Bool) : Nat :=
  f.signBit neg + (if f.ieee then (2 ^ f.eb - 1) * 2 ^ f.mb - 1 else 2 ^ (f.eb + f.mb) - 1)
/-- The canonical NaN, or NaR in F8A and F4 (R102). -/
def Fmt.quietNaN (f : Fmt) : Nat :=
  if f.ieee then (2 ^ f.eb - 1) * 2 ^ f.mb + 2 ^ (f.mb - 1) else 2 ^ (f.eb + f.mb)
/-- Zero of a sign; F8A and F4 have one zero (R101). -/
def Fmt.zero (f : Fmt) (neg : Bool) : Nat := if f.ieee then f.signBit neg else 0

/-- The mode fields an instruction fixes at issue (R106, R107, R111). RM codes are those of R105. -/
structure FpEnv where
  rm : Nat
  sat : Bool
  ftz : Bool
  deriving DecidableEq, Repr, Inhabited

/-- m / 2^sh rounded in a mode (R105), and whether bits were lost. -/
def roundShift (rm : Nat) (neg : Bool) (m sh : Nat) : Nat × Bool :=
  let q := m / 2 ^ sh
  let r := m % 2 ^ sh
  let up :=
    if rm = 1 then decide (2 ^ sh < 2 * r) || (2 * r == 2 ^ sh && q % 2 == 1)
    else if rm = 3 then !neg && r != 0
    else if rm = 4 then neg && r != 0
    else if rm = 5 then decide (2 ^ sh ≤ 2 * r)
    else false
  (if up then q + 1 else q, r != 0)

/-- A positive magnitude m * 2^e rounded to the grid of step 2^q: the multiple of the step, and whether it differs. -/
def roundGrid (rm : Nat) (neg : Bool) (m : Nat) (e q : Int) : Nat × Bool :=
  if q ≤ e then (m * 2 ^ (e - q).toNat, false) else roundShift rm neg m (q - e).toNat

/-- A delivered pattern with its flags. -/
abbrev Delivered := Nat × Flags

/-- Round a nonzero finite value once into a format (R105, R107, R111, R112). -/
def Fmt.round (f : Fmt) (v : FpEnv) (neg : Bool) (m : Nat) (e : Int) : Delivered :=
  let emin : Int := 1 - (f.bias : Int)
  let emax : Int := (if f.ieee then (2 ^ f.eb - 2 : Int) else (2 ^ f.eb - 1 : Int)) - f.bias
  let top : Int := (Nat.log2 m : Int) + e
  let q : Int := max top emin - f.mb
  let (k, lost) := roundGrid v.rm neg m e q
  let (ku, _) := roundGrid v.rm neg m e (top - f.mb)
  let tiny := decide ((Nat.log2 ku : Int) + (top - f.mb) < emin)
  if k = 0 then (f.zero neg, flIf lost flNX ||| flIf (tiny && lost) flUF)
  else if emax < (Nat.log2 k : Int) + q then
    let clamp := v.sat || !f.ieee
    let toLargest := clamp || v.rm == 2 || (v.rm == 3 && neg) || (v.rm == 4 && !neg)
    (if toLargest then f.largest neg else f.infinity neg, flOF ||| flNX ||| flIf clamp flSAT)
  else
    let normal := decide (2 ^ f.mb ≤ k)
    -- k may be 2^(mb+1) after a carry; the exponent field absorbs it
    let bits := if normal then ((q + f.mb + f.bias).toNat - 1) * 2 ^ f.mb + k else k
    if v.ftz && !normal then (f.zero neg, flUF ||| flNX)
    else (f.signBit neg + bits, flIf lost flNX ||| flIf (tiny && lost) flUF)

/-- Deliver an infinite result: under SAT the largest finite value, setting SAT (R107, R108). -/
def Fmt.deliverInf (f : Fmt) (sat neg : Bool) : Delivered :=
  if sat || !f.ieee then (f.largest neg, flSAT) else (f.infinity neg, 0#6)

/-- Deliver an exact value; a zero has the sign it carries. -/
def Fmt.deliver (f : Fmt) (v : FpEnv) : FVal → Delivered
  | .nan sig => (f.quietNaN, flIf sig flNV)
  | .nar => (f.quietNaN, 0#6)
  | .inf neg => f.deliverInf v.sat neg
  | .fin neg m e => if m = 0 then (f.zero neg, 0#6) else f.round v neg m e

/-- Whether a value is a signalling NaN. -/
def FVal.signals : FVal → Bool
  | .nan s => s
  | _ => false
/-- Whether a value is a NaN or NaR. -/
def FVal.isNaN : FVal → Bool
  | .nan _ => true
  | .nar => true
  | _ => false
/-- Whether a value is a zero. -/
def FVal.isZero : FVal → Bool
  | .fin _ m _ => m == 0
  | _ => false
/-- Whether a value is an infinity. -/
def FVal.isInf : FVal → Bool
  | .inf _ => true
  | _ => false
/-- The sign of a value. -/
def FVal.neg : FVal → Bool
  | .inf n => n
  | .fin n _ _ => n
  | _ => false

/-- The exact product; 0 times infinity is a NaN that signals (R112, R139). -/
def FVal.mul (a b : FVal) : FVal :=
  if (a.isZero && b.isInf) || (a.isInf && b.isZero) then .nan true
  else match a, b with
  | .fin n m e, .fin n' m' e' => .fin (n != n') (m * m') (e + e')
  | .nan s, .nan s' => .nan (s || s')
  | .nan _, .nar => .nan true
  | .nar, .nan _ => .nan true
  | .nar, _ => .nan true
  | _, .nar => .nan true
  | .nan s, _ => .nan s
  | _, .nan s => .nan s
  | .inf n, y => .inf (n != y.neg)
  | x, .inf n => .inf (x.neg != n)

/-- A dyadic integer as a signed value at exponent `e0 ≤ e`. -/
def signedAt (neg : Bool) (m : Nat) (e e0 : Int) : Int :=
  let x : Int := (m : Int) * 2 ^ (e - e0).toNat
  if neg then -x else x

/-- The exact sum of a list of values (R105, R113): NaN and 0 × ∞ terms, infinities of both signs, the sign of a zero sum. -/
def sumExact (rm : Nat) (ts : List FVal) : FVal :=
  let both := ts.any (fun t => t.isInf && t.neg) && ts.any fun t => t.isInf && !t.neg
  if ts.any FVal.isNaN || both then .nan (both || ts.any fun t => t.signals || t == .nar)
  else if ts.any FVal.isInf then .inf (ts.any fun t => t.isInf && t.neg)
  else
    let e0 : Int := ts.foldl (fun a t => match t with
      | .fin _ m e => if m = 0 then a else min a e
      | _ => a) 0
    let s : Int := ts.foldl (fun a t => match t with
      | .fin n m e => if m = 0 then a else a + signedAt n m e e0
      | _ => a) 0
    if s = 0 then
      let allZero := ts.all FVal.isZero
      .fin (if allZero && ts.all FVal.neg then true
            else if allZero && ts.all (fun t => !t.neg) then false else rm == 4) 0 0
    else .fin (decide (s < 0)) s.natAbs e0

/-- Negate a value. -/
def FVal.negate : FVal → FVal
  | .inf n => .inf (!n)
  | .fin n m e => .fin (!n) m e
  | x => x

/-- FADD (R139). -/
def fAdd (f : Fmt) (v : FpEnv) (a b : Nat) : Delivered :=
  f.deliver v (sumExact v.rm [f.decode (f.flush v.ftz a), f.decode (f.flush v.ftz b)])
/-- FSUB (R139). -/
def fSub (f : Fmt) (v : FpEnv) (a b : Nat) : Delivered :=
  f.deliver v (sumExact v.rm [f.decode (f.flush v.ftz a), (f.decode (f.flush v.ftz b)).negate])
/-- FMUL (R139). -/
def fMul (f : Fmt) (v : FpEnv) (a b : Nat) : Delivered :=
  f.deliver v ((f.decode (f.flush v.ftz a)).mul (f.decode (f.flush v.ftz b)))
/-- Fused multiply-add (R139). -/
def fMa (f : Fmt) (v : FpEnv) (a b c : Nat) : Delivered :=
  let p := (f.decode (f.flush v.ftz a)).mul (f.decode (f.flush v.ftz b))
  f.deliver v (sumExact v.rm [p, f.decode (f.flush v.ftz c)])

/-- The place of a number pattern in the order of R140, −0 below +0. -/
def Fmt.key (f : Fmt) (p : Nat) : Int :=
  let mag : Int := (p % 2 ^ (f.eb + f.mb) : Nat)
  if p / 2 ^ (f.eb + f.mb) % 2 = 1 then -1 - mag else mag

/-- FMIN and FMAX (R140). -/
def fMinMax (mx : Bool) (ftz : Bool) (a b : Nat) : Delivered :=
  let a := fp32.flush ftz a
  let b := fp32.flush ftz b
  let va := fp32.decode a
  let vb := fp32.decode b
  let nv := flIf (va.signals || vb.signals) flNV
  if va.isNaN && vb.isNaN then (fp32.quietNaN, nv)
  else if va.isNaN then (b, nv)
  else if vb.isNaN then (a, nv)
  else if (if mx then decide (fp32.key b ≤ fp32.key a) else decide (fp32.key a ≤ fp32.key b)) then (a, 0#6) else (b, 0#6)

/-- Compare two FP32 numbers by value: −1, 0 or 1. -/
def fOrder (a b : Nat) : Int :=
  let k (p : Nat) : Int := let mag : Int := (p % 2 ^ 31 : Nat); if p / 2 ^ 31 % 2 = 1 then -mag else mag
  if k a < k b then -1 else if k a = k b then 0 else 1

/-- FCMP (R141). -/
def fCmp (sig : Bool) (a b : Nat) : Delivered :=
  let va := fp32.decode a
  let vb := fp32.decode b
  if va.isNaN || vb.isNaN then (8, flIf (sig || va.signals || vb.signals) flNV)
  else let o := fOrder a b
    (if o < 0 then 1 else if o = 0 then 2 else 4, 0#6)

/-- FCLASS (R142). -/
def fClass (a : Nat) : Nat :=
  match fp32.decode a with
  | .nan true => 2 ^ 8
  | .nan false => 2 ^ 9
  | .nar => 2 ^ 9
  | .inf neg => if neg then 2 ^ 0 else 2 ^ 7
  | .fin neg m _ =>
    if m = 0 then (if neg then 2 ^ 3 else 2 ^ 4)
    else if fp32.subnormal a then (if neg then 2 ^ 2 else 2 ^ 5)
    else (if neg then 2 ^ 1 else 2 ^ 6)

/-- FRND (R143). -/
def fRnd (rm : Nat) (a : Nat) : Delivered :=
  match fp32.decode a with
  | .nan s => (fp32.quietNaN, flIf s flNV)
  | .fin neg m e =>
    if m = 0 ∨ 0 ≤ e then (a, 0#6)
    else
      let (k, lost) := roundShift rm neg m (-e).toNat
      if k = 0 then (fp32.zero neg, flIf lost flNX)
      else ((fp32.round { rm := 1, sat := false, ftz := false } neg k 0).1, flIf lost flNX)
  | _ => (a, 0#6)

/-! ## Conversion (R86, R108, R109, R145) -/

/-- Width, signedness of an integer format code of R86, or none for a float format. -/
def intCode : Nat → Option (Nat × Bool)
  | 0 => some (32, true)
  | 1 => some (32, false)
  | 8 => some (8, true)
  | 9 => some (4, true)
  | 10 => some (16, true)
  | 11 => some (16, false)
  | _ => none
/-- The float format of a code of R86. -/
def floatCode : Nat → Fmt
  | 3 => fp16
  | 4 => bf16
  | 5 => f8a
  | 6 => f8b
  | 7 => f4
  | _ => fp32

/-- The integer in the low `w` bits of a pattern. -/
def intOf (w : Nat) (signed : Bool) (p : Nat) : Int :=
  let x := p % 2 ^ w
  if signed && decide (2 ^ (w - 1) ≤ x) then (x : Int) - 2 ^ w else x
/-- An integer as the low `w` bits of a pattern. -/
def intBits (w : Nat) (x : Int) : Nat := (x % 2 ^ w).toNat
/-- The least and greatest value of an integer format (R99). -/
def intRange (w : Nat) (signed : Bool) : Int × Int :=
  if signed then (-(2 ^ (w - 1)), 2 ^ (w - 1) - 1) else (0, 2 ^ w - 1)

/-- A real value into an integer format (R109, R112): rounded, then clamped; a clamp sets NV and SAT, a NaN NV. -/
def toInteger (rm w : Nat) (signed : Bool) : FVal → Delivered
  | .nan _ => (0, flNV)
  | .nar => (0, flNV)
  | .inf neg => (intBits w (if neg then (intRange w signed).1 else (intRange w signed).2), flNV ||| flSAT)
  | .fin neg m e =>
    let (k, lost) := roundGrid rm neg m e 0
    let x : Int := if neg then -(k : Int) else k
    let c := clampInt x (intRange w signed).1 (intRange w signed).2
    (intBits w c.1, flIf lost flNX ||| flIf c.2 (flNV ||| flSAT))

/-- An integer as an exact value. -/
def ofInteger (x : Int) : FVal := .fin (decide (x < 0)) x.natAbs 0

/-- An exact float source into a float format (R108). -/
def toFloat (f : Fmt) (v : FpEnv) : FVal → Delivered
  | .nar => (f.quietNaN, flIf f.ieee flNV)
  | x => f.deliver v x

/-- CVT (R145). -/
def convertFmt (v : FpEnv) (dst fr : Nat) (p : Nat) : Delivered :=
  let v := { v with ftz := false }
  match intCode fr, intCode dst with
  | some (w, s), some (w', s') =>
    let c := clampInt (intOf w s p) (intRange w' s').1 (intRange w' s').2
    (intBits w' c.1, flIf c.2 flSAT)
  | some (w, s), none => toFloat (floatCode dst) v (ofInteger (intOf w s p))
  | none, some (w', s') => toInteger v.rm w' s' ((floatCode fr).decode (p % 2 ^ (floatCode fr).width))
  | none, none => toFloat (floatCode dst) v ((floatCode fr).decode (p % 2 ^ (floatCode fr).width))

/-- An X8 scale byte: a signed exponent, or none for NaR (R103). -/
def x8 (b : Nat) : Option Int := if b = 0x80 then none else some (intOf 8 true b)

/-- Scale an exact value by 2^k (R103). -/
def FVal.scale (k : Option Int) : FVal → FVal
  | .fin n m e => match k with
    | some k => .fin n m (e + k)
    | none => .nar
  | x => match k with
    | some _ => x
    | none => if x.signals then x else .nar

end Sys2Proof.Machine
end

