-- ==== Sys2Proof/Machine/Sfu.lean ====
section
/-!
DEFINITION. The special-function unit (R151 to R154). Where the manual fixes a bound and not the bits, the result is the
candidate pattern of Config moved to the nearest pattern within the bound (log 4). The bound is found from the function's value in fixed
point, an integer at scale 2^-280 with an error far below the bound.
-/
namespace Sys2Proof.Machine
open Sys2Proof

/-- π at scale 2^-200. -/
def piFix : Nat := 5048344754617993871973410141242436836214643421488662971535368
/-- The natural logarithm of 2 at scale 2^-200. -/
def ln2Fix : Nat := 1113844574712631719546256151097547306333272293549090750737802
/-- The base-2 logarithm of e at scale 2^-200. -/
def log2eFix : Nat := 2318321547468254865173387471183990171487108758923299108729110

/-- Bit-by-bit integer square root; `k` is the number of result bits still to decide. -/
def isqrtBits (n : Nat) : Nat → Nat → Nat
  | 0, r => r
  | k + 1, r => let t := r + 2 ^ k; isqrtBits n k (if t * t ≤ n then t else r)
/-- The integer part of a square root. -/
def isqrt (n : Nat) : Nat := isqrtBits n (Nat.log2 n / 2 + 1) 0

/-- m * 2^e at scale 2^-s, rounded down. -/
def fixOf (s : Nat) (m : Nat) (e : Int) : Nat :=
  if 0 ≤ e + s then m * 2 ^ (e + s).toNat else m / 2 ^ (-(e + s)).toNat

/-- The Taylor sum of exp at `z` (scale 2^-200), from term number `k` with value `t`. -/
def expTaylor (z : Nat) : Nat → Nat → Nat → Nat
  | 0, _, _ => 0
  | fuel + 1, k, t => t + expTaylor z fuel (k + 1) (t * z / 2 ^ 200 / (k + 1))

/-- 2^f for f in 0..1 at scale 2^-200. -/
def exp2Frac (f : Nat) : Nat := expTaylor (f * ln2Fix / 2 ^ 200) 64 0 (2 ^ 200)

/-- 2^t at scale 2^-280, for t at scale 2^-200. -/
def exp2Fix (t : Int) : Nat :=
  let n : Int := t / 2 ^ 200
  let y := exp2Frac (t % 2 ^ 200).toNat
  if 0 ≤ n + 80 then y * 2 ^ (n + 80).toNat else y / 2 ^ (-(n + 80)).toNat

/-- The alternating Taylor sum of sin (`k` odd) or cos (`k` even) at an angle whose square is `z2` (scale 2^-200). -/
def trigTaylor (z2 : Nat) : Nat → Nat → Int → Int
  | 0, _, _ => 0
  | fuel + 1, k, t => t + trigTaylor z2 fuel (k + 2) (-(t * z2 / 2 ^ 200 / ((k + 1) * (k + 2))))

/-- sin(π r) at scale 2^-280 for r in 0..1/2 at scale 2^-200. -/
def sinPiFix (r : Nat) : Int :=
  let th := r * piFix / 2 ^ 200
  trigTaylor (th * th / 2 ^ 200) 64 1 th * 2 ^ 80

/-- `k` binary digits of the base-2 logarithm of `m`, which lies in 1..2 at scale 2^-200. -/
def log2Digits : Nat → Nat → Nat → Nat
  | 0, _, acc => acc
  | k + 1, m, acc =>
    let m2 := m * m / 2 ^ 200
    if 2 ^ 201 ≤ m2 then log2Digits k (m2 / 2) (2 * acc + 1) else log2Digits k m2 (2 * acc)

/-- log₂(m * 2^e) at scale 2^-280 (m > 0). -/
def log2Fix (m : Nat) (e : Int) : Int :=
  let l := Nat.log2 m
  let d := log2Digits 60 (fixOf 200 m (-(l : Int))) 0
  (((l : Int) + e) * 2 ^ 60 + d) * 2 ^ 220

/-- The greatest FP32 magnitude pattern at or below a value at scale 2^-280, and whether it is that value. The pattern of
infinity stands for 2^128 and everything above. -/
def floorPattern (y : Nat) : Nat × Bool :=
  if y = 0 then (0, true)
  else
    let top : Int := (Nat.log2 y : Int) - 280
    if 128 ≤ top then (0x7F800000, true)
    else
      let q : Int := max top (-126) - 23
      let sh := (q + 280).toNat
      let k := y / 2 ^ sh
      let bits := if 2 ^ 23 ≤ k then ((q + 150).toNat - 1) * 2 ^ 23 + k else k
      (bits, y % 2 ^ sh == 0)

/-- The place of the greatest FP32 value at or below y (scale 2^-280) in the order of patterns, −0 and +0 at 0. -/
def floorPlace (y : Int) : Int :=
  let p := floorPattern y.natAbs
  if 0 ≤ y then p.1 else -((if p.2 then p.1 else p.1 + 1 : Nat) : Int)
/-- The place of the least FP32 value at or above y. -/
def ceilPlace (y : Int) : Int := -floorPlace (-y)

/-- The place of a pattern. -/
def placeOf (w : Word) : Int := let mag : Int := (w.toNat % 2 ^ 31 : Nat); if w.toNat / 2 ^ 31 = 1 then -mag else mag
/-- The pattern at a place; at 0 the candidate's sign is kept. -/
def patternAt (p : Int) (cand : Word) : Nat :=
  if p < 0 then 2 ^ 31 + p.natAbs else if p = 0 then (if cand.toNat / 2 ^ 31 = 1 then 2 ^ 31 else 0) else p.toNat

/-- The candidate moved into the values within `bound` of y, both at scale 2^-280. -/
def within (cand : Word) (y : Int) (bound : Nat) : Nat :=
  let lo := ceilPlace (y - bound)
  let hi := floorPlace (y + bound)
  let c := placeOf cand
  patternAt (if c < lo then lo else if hi < c then hi else c) cand

/-- `k` ulps of a value (R152) at scale 2^-280. -/
def ulps (k : Nat) (y : Int) : Nat :=
  let top : Int := (Nat.log2 y.natAbs : Int) - 280
  k * 2 ^ (max top (-126) - 23 + 280).toNat

/-- An inexact SFU result with exact value y, and its flags (R112, R152): UF where the delivered result is nonzero and below 2^-126, or 0
in place of a y below it. -/
def sfuOut (p : Nat) (y : Int) : Delivered :=
  let mag := p % 2 ^ 31
  (p, flNX ||| flIf (decide ((2 ^ 128 - 2 ^ 104) * 2 ^ 280 < y.natAbs)) flOF
    ||| flIf (decide (mag < 2 ^ 23) && (mag != 0 || decide (y.natAbs < 2 ^ 154))) flUF)

/-- m * 2^e with the factors of 2 of m moved into e, `fuel` at most. -/
def oddPart : Nat → Nat → Int → Nat × Int
  | 0, m, e => (m, e)
  | fuel + 1, m, e => if m % 2 = 0 then oddPart fuel (m / 2) (e + 1) else (m, e)

/-- Exp2Fn of an exact argument (neg, m, e), the EXP2 function of R151 and R152. -/
def exp2Exact (neg : Bool) (m : Nat) (e : Int) : Delivered :=
  if m = 0 then (0x3F800000, 0#6)
  else
    -- the argument is at or above 128, or below -150, whatever its low bits
    let big := decide (8 ≤ (Nat.log2 m : Int) + e)
    if big then (if neg then (0, flUF ||| flNX) else (0x7F800000, flOF ||| flNX))
    else
      let t0 := fixOf 200 m e
      let exact := decide (0 ≤ e) || m % 2 ^ (-e).toNat == 0
      -- an argument below the grid of the fixed point is not 0
      let t : Int := if neg then -((if exact then t0 else t0 + 1 : Nat) : Int) else t0
      if 128 * 2 ^ 200 ≤ t then (0x7F800000, flOF ||| flNX)
      else if t < -(150 * 2 ^ 200) then (0, flUF ||| flNX)
      else
        let n : Int := t / 2 ^ 200
        if exact ∧ -149 ≤ n then
          (if -126 ≤ n then (n + 127).toNat * 2 ^ 23 else 2 ^ (n + 149).toNat, 0#6)
        else
          -- the grid's argument lies below an argument that is not on the grid, and a positive argument gives more than 1
          let y0 : Int := exp2Fix t + if exact then 0 else 1
          let y : Int := if neg then y0 else max y0 (2 ^ 280 + 1)
          let o := oddPart (Nat.log2 m) m e
          sfuOut (within (Config.exp2 (if neg then -(o.1 : Int) else o.1) o.2) y (ulps 2 y)) y

/-- The functions of R151, by SUB code. -/
def sfuFn (op : Nat) (a : Word) : Delivered :=
  let cand := Config.sfu op a
  match fp32.decode a.toNat with
  | .nan s => (fp32.quietNaN, flIf s flNV)
  | .nar => (fp32.quietNaN, 0#6)
  | .inf neg =>
    match op with
    | 0 => (fp32.zero neg, 0#6)
    | 1 => if neg then (fp32.quietNaN, flNV) else (0, 0#6)
    | 2 => if neg then (fp32.quietNaN, flNV) else (a.toNat, 0#6)
    | 3 => if neg then (0, 0#6) else (a.toNat, 0#6)
    | 4 => if neg then (fp32.quietNaN, flNV) else (a.toNat, 0#6)
    | 7 => ((if neg then 0xBF800000 else 0x3F800000), 0#6)
    | _ => (fp32.quietNaN, flNV)
  | .fin neg m e =>
    let sgn (y : Nat) : Int := if neg then -(y : Int) else y
    let pow2 := decide (m = 2 ^ Nat.log2 m)
    let k : Int := (Nat.log2 m : Int) + e
    match op with
    | 0 =>
      if m = 0 then (fp32.infinity neg, flDZ)
      else
        let y := sgn (fixOf 600 1 0 / fixOf 320 m e)
        if pow2 ∧ -k ≤ 127 then fp32.deliver { rm := 1, sat := false, ftz := false } (.fin neg 1 (-k))
        else sfuOut (within cand y (ulps 1 y)) y
    | 1 =>
      if m = 0 then (fp32.infinity neg, flDZ) else if neg then (fp32.quietNaN, flNV)
      else if pow2 ∧ k % 2 = 0 then fp32.deliver { rm := 1, sat := false, ftz := false } (.fin false 1 (-(k / 2)))
      else
        let y : Int := isqrt (2 ^ 880 / fixOf 320 m e)
        sfuOut (within cand y (ulps 1 y)) y
    | 2 =>
      if m = 0 then (a.toNat, 0#6) else if neg then (fp32.quietNaN, flNV)
      else
        let x := fixOf 400 m e
        let r := isqrt x
        -- a sticky bit stands for what the root leaves
        fp32.round { rm := 1, sat := false, ftz := false } false (2 * r + (if r * r = x then 0 else 1)) (-201)
    | 3 => exp2Exact neg m e
    | 4 =>
      if m = 0 then (fp32.infinity true, flDZ) else if neg then (fp32.quietNaN, flNV)
      else if pow2 then fp32.deliver { rm := 1, sat := false, ftz := false } (ofInteger k)
      else
        let y := log2Fix m e
        sfuOut (within cand y (max (ulps 2 y) (2 ^ 258))) y
    | 7 =>
      if m = 0 then (a.toNat, 0#6)
      else
        let x := fixOf 280 m e
        let y : Nat :=
          -- tanh x lies below x, however small x is
          if k < -12 then x - (x * x * x / (3 * 2 ^ 560) + 1) + 2 * (x * x * x * x * x) / (15 * 2 ^ 1120)
          else if 5 ≤ k then 2 ^ 280 - 2 ^ 190
          else
            let g := exp2Fix (((2 * x) / 2 ^ 80 * log2eFix / 2 ^ 200 : Nat) : Int)
            (g - 2 ^ 280) * 2 ^ 280 / (g + 2 ^ 280)
        sfuOut (within cand (sgn y) (ulps 2 (sgn y))) (sgn y)
    | _ =>
      -- SINP and COSP: reduce |x| modulo 2 exactly
      let r := fixOf 200 m e % 2 ^ 201
      let sin := op == 5
      if r % 2 ^ 200 = 0 then
        (if sin then (fp32.zero neg, 0#6) else ((if r = 0 then 0x3F800000 else 0xBF800000), 0#6))
      else if r % 2 ^ 199 = 0 then
        (if sin then ((if (r = 2 ^ 199) != neg then 0x3F800000 else 0xBF800000), 0#6) else (0, 0#6))
      else
        -- half-turns: sin changes sign after 1, cos after 1/2
        let h := r % 2 ^ 200
        let fold := if h ≤ 2 ^ 199 then h else 2 ^ 200 - h
        -- at an input that is not exact the magnitude lies below 1, however near it is
        let part (x : Nat) : Int := min (sinPiFix x) (2 ^ 280 - 1)
        let y : Int :=
          if sin then (if r < 2 ^ 200 then part fold else -part fold)
          else
            let c := part (2 ^ 199 - fold)
            if 2 ^ 199 < r ∧ r < 3 * 2 ^ 199 then -c else c
        let y := if sin && neg then -y else y
        sfuOut (within cand y (max (ulps 2 y) (2 ^ 258))) y

/-! ## Softmax helpers (R153 to R156) -/

/-- EXS: Exp2Fn(a * b − c) (R153). -/
def exsFn (a b c : Nat) : Delivered :=
  match sumExact 1 [(fp32.decode a).mul (fp32.decode b), (fp32.decode c).negate] with
  | .nan s => (fp32.quietNaN, flIf s flNV)
  | .nar => (fp32.quietNaN, 0#6)
  | .inf neg => if neg then (0, 0#6) else (0x7F800000, 0#6)
  | .fin neg m e => exp2Exact neg m e

/-- ExpDiff(u, w) for u ≤ w (R154). -/
def expDiff (u w : Nat) : Delivered :=
  if fp32.decode u == .inf true then (0, 0#6)
  else if fOrder u w = 0 then (0x3F800000, 0#6)
  else if fp32.decode w == .inf false then (0, 0#6)
  else match sumExact 1 [fp32.decode u, (fp32.decode w).negate] with
    | .fin neg m e => exp2Exact neg m e
    | _ => (fp32.quietNaN, 0#6)

/-- s1 * c1 + s2 * c2, rounded once (R155, R156). -/
def dotTwo (v : FpEnv) (s1 c1 s2 c2 : Nat) : Delivered :=
  fp32.deliver { v with ftz := false }
    (sumExact v.rm [(fp32.decode s1).mul (fp32.decode c1), (fp32.decode s2).mul (fp32.decode c2)])

/-- The step of SMXA: from m, s, a, b to m', s', c and the flags (R155). -/
def smxaFn (v : FpEnv) (m s a b : Nat) : Nat × Nat × Nat × Flags :=
  let v := { v with ftz := false }
  let da := fp32.decode a
  let db := fp32.decode b
  let dm := fp32.decode m
  let ds := fp32.decode s
  let zi := (da.isZero && db.isInf) || (da.isInf && db.isZero)
  if da.isNaN || db.isNaN || dm.isNaN || ds.isNaN || zi then
    (fp32.quietNaN, fp32.quietNaN, fp32.quietNaN,
      flIf (zi || da.signals || db.signals || dm.signals || ds.signals) flNV)
  else
    let x := fMul fp32 v a b
    let m' := (fMinMax true false m x.1).1
    let c := expDiff m m'
    let c2 := expDiff x.1 m'
    let s' := dotTwo v s c.1 c2.1 0x3F800000
    (m', s'.1, c.1, x.2 ||| c.2 ||| c2.2 ||| s'.2)

/-- SMXM: merge (m2, s2) into (m1, s1); the third value is c1 (R156). -/
def smxmFn (v : FpEnv) (m1 s1 m2 s2 : Nat) : Nat × Nat × Nat × Flags :=
  let ds := [m1, s1, m2, s2].map fp32.decode
  if ds.any FVal.isNaN then
    (fp32.quietNaN, fp32.quietNaN, fp32.quietNaN, flIf (ds.any FVal.signals) flNV)
  else
    let m' := (fMinMax true false m1 m2).1
    let c1 := expDiff m1 m'
    let c2 := expDiff m2 m'
    let s' := dotTwo v s1 c1.1 s2 c2.1
    (m', s'.1, c1.1, c1.2 ||| c2.2 ||| s'.2)

end Sys2Proof.Machine
end

