-- ==== Sys2Proof/Machine/Translate.lean ====
section
/-!
DEFINITION. Reading and changing the parts of State, page walks and TLBs (R193 to R197), the frame owner table (R351), stash
registrations (R205 to R210) and the physical reads and writes of memory.
-/
namespace Sys2Proof.Machine
open Sys2Proof

/-! ## Parts of the state -/

/-- The warp of a reference. -/
def State.getWarp (s : State) (r : WarpRef) : Option Warp :=
  if s.warp.ref = r then some s.warp else s.parked.find? (fun w => w.ref = r)
/-- Change the warp of a reference. -/
def State.modWarp (s : State) (r : WarpRef) (f : Warp → Warp) : State :=
  if s.warp.ref = r then { s with warp := f s.warp }
  else { s with parked := s.parked.map fun w => if w.ref = r then f w else w }
/-- Change the issuing warp. -/
def State.modFocus (s : State) (f : Warp → Warp) : State := { s with warp := f s.warp }
/-- Every warp. -/
def State.allWarps (s : State) : List Warp := s.warp :: s.parked
/-- The warps of a workgroup. -/
def State.warpsOf (s : State) (wg : Nat) : List Warp := s.allWarps.filter fun w => w.ref.wg == wg
/-- Make the warp of a reference the issuing one. -/
def State.focus (s : State) (r : WarpRef) : State :=
  if s.warp.ref = r then s
  else match s.parked.find? (fun w => w.ref = r) with
    | none => s
    | some w => { s with warp := w, parked := s.warp :: s.parked.filter fun x => x.ref != r }
/-- The workgroup with a number. -/
def State.wgOf (s : State) (id : Nat) : Option Wg := s.wgs.find? fun g => g.id == id
/-- Change a workgroup. -/
def State.modWg (s : State) (id : Nat) (f : Wg → Wg) : State :=
  { s with wgs := s.wgs.map fun g => if g.id = id then f g else g }
/-- The issuing warp's workgroup. -/
def State.myWg (s : State) : Wg := (s.wgOf s.warp.ref.wg).getD default
/-- The launch with a number. -/
def State.launchOf (s : State) (id : Nat) : Launch := (s.launches.find? fun l => l.id == id).getD default
/-- Change a launch. -/
def State.modLaunch (s : State) (id : Nat) (f : Launch → Launch) : State :=
  { s with launches := s.launches.map fun l => if l.id = id then f l else l }
/-- The issuing warp's launch. -/
def State.myLaunch (s : State) : Launch := s.launchOf s.myWg.launch
/-- The context with an owner tag. -/
def State.ctx (s : State) (t : Nat) : Ctx := s.ctxs.getD t Ctx.fresh
/-- Change a context. -/
def State.modCtx (s : State) (t : Nat) (f : Ctx → Ctx) : State := { s with ctxs := updAt s.ctxs t f }
/-- A context is live, and its kill has not begun (R349, R367). -/
def Ctx.live (c : Ctx) : Bool := c.state == 1 && c.dying.isNone
/-- A core. -/
def State.coreAt (s : State) (c : Nat) : Core := s.cores.getD c Core.fresh
/-- Change a core. -/
def State.modCore (s : State) (c : Nat) (f : Core → Core) : State := { s with cores := updAt s.cores c f }
/-- The cycle counter of a die, 4 for the bridge die (R318). -/
def State.ctr (s : State) (die : Nat) : Nat := s.ctrs.getD die 0
/-- The die of a core. -/
def dieOf (core : Nat) : Nat := core / 64
/-- The die of the issuing warp. -/
def State.myDie (s : State) : Nat := dieOf s.myWg.core
/-- Take a new number. -/
def State.fresh (s : State) : State × Nat := ({ s with nextId := s.nextId + 1 }, s.nextId)
/-- The plane of packet `n`: never one that the census reports as failed (R276; log 3). -/
def State.nextPlane (s : State) (n : Nat) : Nat :=
  let up := (List.range 18).filter fun p => !s.svc.planes.getLsbD p
  up.getD (Config.spray n 0 % up.length) 18
/-- The routes once message `m` has left with number `n`. -/
def State.routed (s : State) (n : Nat) (m : OutMsg) : List Route :=
  if m.isPacket then s.fabric.routes ++ [{ id := n, plane := s.nextPlane n, path := Config.spray n 1, sent := s.ctr 4 }]
  else s.fabric.routes
/-- Send a message out. -/
def State.send (s : State) (m : OutMsg) : State :=
  let n := s.nextId
  { s with nextId := n + 1, fabric := { s.fabric with out := s.fabric.out ++ [(n, m)], routes := s.routed n m } }
/-- Change the service state. -/
def State.modSvc (s : State) (f : Service → Service) : State := { s with svc := f s.svc }
/-- Change the fabric state. -/
def State.modFab (s : State) (f : Fabric → Fabric) : State := { s with fabric := f s.fabric }
/-- Change device memory. -/
def State.modMem (s : State) (f : DevMem → DevMem) : State := { s with mem := f s.mem }
/-- Change the health counts of a die. -/
def State.modDie (s : State) (d : Nat) (f : DieHealth → DieHealth) : State :=
  s.modSvc fun v => { v with dies := updAt v.dies d f }
/-- Put an event before every other input. -/
def State.raise (s : State) (i : Instr) : State := if ({ i := i } : Input) ∈ s.inputs then s else { s with inputs := { i := i } :: s.inputs }

/-- The device answers: it has power and the Safelight runs (R18, R365). -/
def Service.runs (v : Service) : Bool := v.powered && v.safelight

/-! ## Frames and walks (R193 to R195, R351) -/

/-- OWNER of a frame at reset (R351): the table, an entry of 4 bytes for each of 2^24 frames, lies in the last 1,024 frames, which the Safelight
owns (log 67); every other frame is unassigned. -/
def resetOwner (f : Nat) : Nat := if 2 ^ 24 - 1024 ≤ f ∧ f < 2 ^ 24 then 30 else 31
/-- OWNER and SHARE of a frame; a frame with no entry is as at reset (R351). -/
def Service.frame (v : Service) (f : Nat) : Nat × BitVec 18 :=
  match v.frames.find? (fun e => e.1 == f) with
  | some (_, o, sh) => (o, sh)
  | none => (resetOwner f, 0#18)
/-- Set OWNER and SHARE of a frame. -/
def Service.setFrame (v : Service) (f o : Nat) (sh : BitVec 18) : Service :=
  let rest := v.frames.filter fun e => e.1 != f
  { v with frames := if o = resetOwner f ∧ sh = 0#18 then rest else (f, o, sh) :: rest }
/-- Whether the contexts of a function may use a frame (R351). -/
def Service.mayUse (v : Service) (func f : Nat) : Bool :=
  (v.frame f).1 == func || (decide (func < 18) && (v.frame f).2.getLsbD func)

/-- The outcome of a walk (R195). -/
inductive WalkRes where
  | leaf (t : TlbEntry)
  | fault (c : Cause)
  deriving DecidableEq, Repr, Inhabited

/-- Whether an entry of level `lv` breaks R194. -/
def entryBad (lv space : Nat) (x : Nat) : Bool :=
  let leaf := bitsAt x 1 1 == 1
  let frame := bitsAt x 16 36 * 2 ^ 16
  bitsAt x 52 12 != 0 || bitsAt x 8 5 != 0 || bitsAt x 4 1 != 0 || bitsAt x 5 2 == 3
    || (leaf && decide (lv ≤ 1)) || (!leaf && lv == 4)
    || (leaf && bitsAt x 13 3 != 0)
    || (leaf && lv == 3 && frame % 2 ^ 26 != 0) || (leaf && lv == 2 && frame % 2 ^ 36 != 0)
    || (leaf && decide (space ≤ 1) && decide (2 ^ 40 ≤ frame))
    || (!leaf && decide (2 ^ 40 ≤ bitsAt x 13 39 * 2 ^ 13))

/-- The address of the entry that level `lv` of a walk reads: level 0 indexes bits 63:56, level k the ten bits from 66 - 10k down (R193). -/
def entryAt (off lv table : Nat) : Nat := table + 8 * (if lv = 0 then bitsAt off 56 8 else bitsAt off (56 - 10 * lv) 10)
/-- One level of a walk and those below it; `fuel` is 5 at level 0 (R193). `rd` reads an entry, or nothing where the read meets an
uncorrectable error (R195). -/
def walkLevel (rd : Nat → Option Nat) (v : Service) (func tag space : Nat) (off : Nat) : Nat → Nat → WalkRes
  | 0, _ => .fault .protection
  | fuel + 1, table =>
    let lv := 5 - (fuel + 1)
    if !v.mayUse func (table / 65536) then .fault .protection
    else match rd (entryAt off lv table) with
      | none => .fault .eccUncorrectable
      | some x =>
        if bitsAt x 0 1 = 0 then .fault .pageMiss
        else if entryBad lv space x then .fault .protection
        else if bitsAt x 1 1 = 1 then
          let size := if lv = 2 then 2 ^ 36 else if lv = 3 then 2 ^ 26 else 2 ^ 16
          let frame := bitsAt x 16 36 * 65536 + off % size / 65536 * 65536
          if decide (space ≤ 1) && !v.mayUse func (frame / 65536) then .fault .protection
          else .leaf { tag := tag, space := space, page := off / 65536, frame := frame, wr := bitsAt x 2 1 == 1,
                       ex := bitsAt x 3 1 == 1, mt := bitsAt x 5 2, nopeer := bitsAt x 7 1 == 1 }
        else walkLevel rd v func tag space off fuel (bitsAt x 13 39 * 2 ^ 13)
/-- The addresses of the entries that a walk reads. -/
def walkPath (rd : Nat → Option Nat) (off : Nat) : Nat → Nat → List Nat
  | 0, _ => []
  | fuel + 1, table =>
    let a := entryAt off (5 - (fuel + 1)) table
    a :: (match rd a with
      | some x => if bitsAt x 0 2 = 1 then walkPath rd off fuel (bitsAt x 13 39 * 2 ^ 13) else []
      | none => [])

/-! ## Where a physical address is held (R205 to R210) -/

/-- The registered stash line that holds a physical address: workgroup, entry, line of the entry, stash offset. -/
def State.locate (s : State) (pa : Nat) : Option (Nat × Nat × Nat × Nat) :=
  s.wgs.findSome? fun g =>
    if g.saved || g.ended then none
    else (List.range g.smap.length).findSome? fun e =>
      match g.smap[e]? with
      | some m =>
        if m.valid then
          (List.range m.pages.length).findSome? fun k =>
            if m.pages.getD k 0 = pa / 4096 then
              some (g.id, e, k * 32 + pa % 4096 / 128, m.soff + k * 4096 + pa % 4096)
            else none
        else none
      | none => none
/-- Whether a line of an entry of a workgroup is filled, CLEAN or DIRTY (R205). -/
def State.lineHeld (s : State) (wg e line : Nat) : Bool :=
  (((s.wgOf wg).bind fun g => g.smap[e]?).map fun m => m.lines.any fun l => l.1 == line).getD false
/-- The memory and address at which a physical address is read on a die: a stash line that is filled, or the die's view (R207, R208, R260). -/
def State.readPlace (s : State) (die pa : Nat) : Memory × Nat :=
  match s.locate pa with
  | some (wg, e, line, off) => if s.lineHeld wg e line then (((s.wgOf wg).getD default).stash, off) else (s.mem.view die, pa)
  | none => (s.mem.view die, pa)
/-- The line of L2 that holds a physical address (R200). -/
def State.l2Line (s : State) (pa : Nat) : Option L2Line := s.l2.find? fun l => l.line == pa / 128
/-- What an error is to the code of the line that holds it: the strong code corrects some that the ordinary code does not (R394). -/
def State.strongly (s : State) (e : LatentError) : LatentError :=
  if e.few && e.region.isSome && ((s.l2Line (e.sector * 32)).map L2Line.strong).getD false then { e with kind := .corrected } else e
/-- An error that stands in the sector of a physical address, or that has been detected in its dirty line (R396, R397). -/
def State.errorAt (s : State) (pa : Nat) : Option LatentError :=
  ((s.svc.errors.find? fun e => e.sector == pa / 32)
    <|> s.svc.errors.find? fun e => e.kind == .dirtyLine && e.found && e.sector / 4 == pa / 128).map s.strongly
/-- What a walk on a die reads of a page table: an entry, or nothing where its sector is poisoned or meets an uncorrectable error. -/
def State.tableWord (s : State) (die a : Nat) : Option Nat :=
  match (s.errorAt a).map LatentError.kind with
  | some .cleanCopy | some .dirtyLine | some .dram => none
  | _ =>
    let p := s.readPlace die a
    match p.1.token p.2 with
    | some _ => none
    | none => some (p.1.nat p.2 8)

/-- A page walk in the view of a die (R193 to R195). A space with no root misses (log 8). -/
def State.walk (s : State) (die tag space : Nat) (off : DWord) : WalkRes :=
  match (s.ctx tag).roots.getD space none with
  | none => .fault .pageMiss
  | some root => walkLevel (s.tableWord die) s.svc (s.ctx tag).func tag space off.toNat 5 root

/-- Whether a TLB entry serves a request (R196). -/
def TlbEntry.hits (t : TlbEntry) (tag space page : Nat) : Bool := t.tag == tag && t.space == space && t.page == page

/-- The entry of a core's L1 TLB, or of its cluster's L2 TLB, for a page (R196). -/
def State.tlbHit (s : State) (core tag space page : Nat) : Option TlbEntry :=
  ((s.coreAt core).tlb ++ s.l2tlb.getD (core / 4) []).find? fun t => t.hits tag space page
/-- A translation through the TLBs of a core, or by a walk alone for an agent with no TLB; a walk that succeeds fills both
TLBs, and the entry that a full one held the longest goes (R195, R196; log 81). A store to a page with WR = 0 meets PROTECTION. What becomes of the errors that a walk meets follows in `State.lookup`. -/
def State.lookupTlb (s : State) (core : Option Nat) (die tag space : Nat) (off : DWord) (write : Bool) : State × WalkRes :=
  let page := off.toNat / 65536
  let check : WalkRes → WalkRes
    | .leaf t => if write && !t.wr then .fault .protection else .leaf t
    | r => r
  match core with
  | none => (s, check (s.walk die tag space off))
  | some c =>
    match s.tlbHit c tag space page with
    | some t => (s, check (.leaf t))
    | none =>
      match s.walk die tag space off with
      | .leaf t =>
        let s := s.modCore c fun k => { k with tlb := (t :: k.tlb).take 256 }
        ({ s with l2tlb := updAt s.l2tlb (c / 4) fun l => (t :: l).take 4096 }, check (.leaf t))
      | r => (s, r)

/-! ## Stash lines (R205 to R209) -/

/-- Copy a line of 128 bytes with its poison sectors from one memory to another. -/
def copyLine (src : Memory) (a : Nat) (dst : Memory) (b : Nat) : Memory :=
  (List.range 4).foldl (fun m k =>
    match src.token (a + 32 * k) with
    | some t => m.mark (b + 32 * k) (some t)
    | none => (m.setBytes (b + 32 * k) (src.bytes (a + 32 * k) 32)).mark (b + 32 * k) none) dst

/-- Fill an ABSENT line of a registration from memory for an access of a context, whose tag the line takes (R207, R350). -/
def State.fillLine (s : State) (wg e line tag : Nat) : State :=
  match s.wgOf wg with
  | none => s
  | some g =>
    match g.smap[e]? with
    | none => s
    | some m =>
      if (m.lines.find? fun l => l.1 == line).isSome then s
      else
        let pa := m.pages.getD (line / 32) 0 * 4096 + line % 32 * 128
        let die := dieOf g.core
        let s := s.modMem fun d => ((d.catchUp die pa).catchUp die (pa + 32)).catchUp die (pa + 64) |>.catchUp die (pa + 96)
        let v := s.mem.view die
        s.modWg wg fun g =>
          { g with stash := copyLine v pa g.stash (m.soff + line * 128)
                   smap := updAt g.smap e fun m =>
                     { m with lines := (line, 0#4) :: m.lines, owners := (line, tag) :: m.owners.filter fun o => o.1 != line } }

/-- Note that a stash byte written by offset under an owner tag lies in a registered line: the line becomes DIRTY and carries the tag (R207,
R350). -/
def markDirty (g : Wg) (tag off : Nat) : Wg :=
  { g with smap := g.smap.map fun m =>
      if m.valid && decide (m.soff ≤ off) && decide (off < m.soff + m.len) then
        let line := (off - m.soff) / 128
        let bit : BitVec 4 := 1#4 <<< (off % 128 / 32)
        match m.lines.find? fun l => l.1 == line with
        | some _ => { m with lines := m.lines.map (fun l => if l.1 = line then (line, l.2 ||| bit) else l)
                             owners := (line, tag) :: m.owners.filter fun o => o.1 != line }
        | none => m
      else m }

/-- The registered line of a workgroup that a stash offset lies in: entry, line and physical address. -/
def Wg.mappedAt (g : Wg) (off : Nat) : Option (Nat × Nat × Nat) :=
  (List.range g.smap.length).findSome? fun e => match g.smap[e]? with
    | some m =>
      if m.valid && decide (m.soff ≤ off) && decide (off < m.soff + m.len) then
        let line := (off - m.soff) / 128
        some (e, line, m.pages.getD (line / 32) 0 * 4096 + (off - m.soff) % 4096)
      else none
    | none => none
/-- Before a device write is applied at the home of a line that the host may cache, the host's copy is back-invalidated (R268; log 57). -/
def State.backInvalidate (s : State) (pa : Nat) : State :=
  let line := pa / 128
  if line ∈ s.svc.directory then
    (s.modSvc fun v => { v with directory := v.directory.filter (· != line) }).send (.backInvalidate 0 line)
  else s

/-- A sector write to a workgroup's stash by stash offset under an owner tag. In a registered line it is a write of the location: every
write already in a view is ordered before it (R262, R263). -/
def State.stashWrite (s : State) (wg tag : Nat) (w : SectorWrite) : State :=
  let s := match (s.wgOf wg).bind fun g => g.mappedAt w.addr with
    | some (e, line, pa) =>
      ((s.modMem DevMem.sync).fillLine wg e line tag).backInvalidate pa
    | none => s
  s.modWg wg fun g => markDirty { g with stash := g.stash.apply w } tag w.addr

/-- A physical sector write that enters the view of die `die` under an owner tag (R208, R260, R350). A write served by a stash
line is performed there, after every earlier write has been applied. -/
def State.rawWrite (s : State) (die tag : Nat) (w : SectorWrite) : State :=
  match s.locate w.addr with
  | some (wg, e, line, off) =>
    let s := ((s.modMem DevMem.sync).fillLine wg e line tag).backInvalidate w.addr
    s.modWg wg fun g => markDirty { g with stash := g.stash.apply { w with addr := off } } tag off
  | none =>
    let line := w.addr / 128
    (s.backInvalidate w.addr).modMem fun d => { d.enter die w with owners := (line, tag) :: d.owners.filter fun o => o.1 != line }

/-- Write back the dirty sectors of an entry; its lines become CLEAN (R209). The lines in memory carry the tag of their last writer (R350). -/
def State.writeBack (s : State) (wg e : Nat) : State :=
  match s.wgOf wg with
  | none => s
  | some g =>
    match g.smap[e]? with
    | none => s
    | some m =>
      let s := m.lines.foldl (fun s l =>
        let tag := ((m.owners.find? fun o => o.1 == l.1).map Prod.snd).getD g.tag
        (List.range 4).foldl (fun s k =>
          if l.2.getLsbD k then
            let off := m.soff + l.1 * 128 + 32 * k
            let pa := m.pages.getD (l.1 / 32) 0 * 4096 + l.1 % 32 * 128 + 32 * k
            let w : SectorWrite := match g.stash.token off with
              | some t => sectorPoison pa t
              | none => sectorBytes pa (g.stash.bytes off 32)
            s.modMem fun d => { d.enter (dieOf g.core) w with
              owners := (pa / 128, tag) :: d.owners.filter fun o => o.1 != pa / 128 }
          else s) s) s
      s.modWg wg fun g => { g with smap := updAt g.smap e fun m => { m with lines := m.lines.map (fun l => (l.1, 0#4)) } }

/-- Write an entry back and, once the write-back is complete on every die, withdraw its registration (R209, R232, R262). -/
def State.unmap (s : State) (wg e : Nat) : State :=
  let s := (s.writeBack wg e).modMem DevMem.sync
  s.modWg wg fun g => { g with smap := updAt g.smap e fun m => { m with valid := false, lines := [], pages := [], owners := [] },
                               refill := g.refill.filter (· != e) }

/-- Unmap every valid entry of a workgroup (R209). -/
def State.unmapAll (s : State) (wg : Nat) : State :=
  match s.wgOf wg with
  | none => s
  | some g => (List.range g.smap.length).foldl (fun s e =>
      if (g.smap[e]?.map SmapEntry.valid).getD false then s.unmap wg e else s) s

end Sys2Proof.Machine
end

