-- ==== Sys2Proof/Machine/Ops.lean ====
section
/-!
DEFINITION. Tokens and the Contact Sheet (R372 to R376), service requests (R398), event records (R326, R399), flag events
(R378), the Drying Rack (R379) and reads of a sector that may meet an error (R396, R400). A fault of Harog is never a trap:
it is a token where the result would have been and, where a rule says so, a flag event; the operations here are that entry,
and a commit (Machine/Recovery.lean) is the way out.
-/
namespace Sys2Proof.Machine
open Sys2Proof

/-! ## Where a token comes from -/

/-- What a Contact Sheet entry says of the access or instruction that raised the cause (R376). -/
structure Origin where
  lanes : Mask
  pc : DWord
  launchId : Nat
  cluster : Nat
  rank : Nat
  warp : Nat
  hwloc : Word
  /-- Die whose cycle counter the entry records. -/
  die : Nat
  addr : Option (DWord × BitVec 16)
  /-- Slot, TKIND and TIDX. -/
  tile : Option (Nat × Nat × Nat)
  remote : Bool
  aux : Word
  /-- Tokens that the instruction has made already, by cause code: one cause makes one (R215). -/
  share : List (Nat × Word) := []
  deriving DecidableEq, Repr, Inhabited

/-- An origin with no warp and no instruction, on a die (R414). -/
def Origin.device (die : Nat) : Origin :=
  { lanes := 0#32, pc := 0#64, launchId := 0, cluster := 0, rank := 0, warp := 0xFF, hwloc := 0#32, die := die, addr := none,
    tile := none, remote := false, aux := 0#32 }

/-- HWLOC (R41). -/
def hwlocOf (core quad : Nat) : Word := BitVec.ofNat 32 (core / 64 * 256 + core % 64 * 4 + quad % 4)
/-- The number of workgroups of a cluster in one stage (R28). -/
def nwgOf (p : Packet) : Nat := p.cdim.1 * p.cdim.2.1 * p.cdim.2.2
/-- WGRANK (R28). -/
def rankOf (p : Packet) (g : Wg) : Nat := g.stage * nwgOf p + (g.wg.1 + p.cdim.1 * (g.wg.2.1 + p.cdim.2.1 * g.wg.2.2))
/-- The linear cluster index (R29). -/
def linearCluster (p : Packet) (c : Nat × Nat × Nat) : Nat := c.1 + p.gdim.1 * (c.2.1 + p.gdim.2.1 * c.2.2)
/-- The spatial warps of a workgroup (R19). -/
def spatialWarps (p : Packet) : Nat := (p.wdim.1 * p.wdim.2.1 * p.wdim.2.2 + 31) / 32

/-- The origin of an access of a workgroup: of warp `w` (0xFF for none) and lanes `m` at `pc`. -/
def State.originOf (s : State) (wg w quad : Nat) (m : Mask) (pc : DWord) : Origin :=
  let g := (s.wgOf wg).getD default
  let l := s.launchOf g.launch
  { Origin.device (dieOf g.core) with
    lanes := m, pc := pc, launchId := l.pkt.launchId, cluster := linearCluster l.pkt g.cl, rank := rankOf l.pkt g, warp := w
    hwloc := hwlocOf g.core quad }
/-- The origin of the issuing warp's instruction. -/
def State.here (s : State) (m : Mask) (pc : DWord) : Origin := s.originOf s.warp.ref.wg s.warp.ref.warp s.warp.quad m pc
/-- The origin of engine work that an instruction at `pc` issued (R414). -/
def State.engineOrigin (s : State) (wg : Nat) (pc : DWord) : Origin := s.originOf wg 0xFF 0 0#32 pc

/-! ## Event records (R326, R399) -/

/-- A 16-bit count that saturates. -/
def sat16 (n : Nat) : Nat := min n 65535

/-- Whether a request of the context is resolved: SRDONE − n, signed, is 0 or more (R398). -/
def Ctx.resolved (c : Ctx) (n : Nat) : Bool :=
  decide (0 ≤ (BitVec.ofNat 32 c.srDone - BitVec.ofNat 32 n).toInt)

/-- The pending request for a page, if there is one (R195). -/
def Ctx.pending (c : Ctx) (space page : Nat) : Option Nat :=
  (c.misses.find? fun m => m.1 == space && m.2.1 == page && !c.resolved m.2.2).map fun m => m.2.2

/-- A fault record (R399). -/
def faultRecord (grade cause kind launchId : Nat) (pc addr : DWord) (token : Word) (place : BitVec 16) : List Byte :=
  [0x30#8, BitVec.ofNat 8 grade, BitVec.ofNat 8 cause, BitVec.ofNat 8 kind] ++ natLE 4 launchId ++ natLE 8 pc.toNat
    ++ natLE 8 addr.toNat ++ natLE 4 token.toNat ++ natLE 2 place.toNat ++ [0#8, 0#8]

/-- Take the next service-request sequence for a page (R398). -/
def Ctx.newRequest (c : Ctx) (space page : Nat) : Ctx :=
  { c with srSeq := (c.srSeq + 1) % 2 ^ 32, misses := (space, page, (c.srSeq + 1) % 2 ^ 32) :: c.misses }

/-- Bytes written as sector writes that enter the view of the bridge die and are performed on every die. -/
def State.deviceWrite (s : State) (tag pa : Nat) (bs : List Byte) : State :=
  ((sectorRun 4 pa bs).foldl (fun s w => s.rawWrite 4 tag w) s).modMem DevMem.sync

/-- Write a record to the event queue of a context (R326). With EN clear no record is written. The ring is full where
EQWRITE is ahead of EQREAD by its size exactly (log 86). A record that finds it full, or whose write meets a fault, is discarded and counted (R417);
a page miss also queues its request, whose own record meets the same miss and is counted too. -/
def State.pushRecord (s : State) (tag : Nat) (bs : List Byte) : State :=
  let c := s.ctx tag
  let lose (n : Nat) (s : State) := s.modCtx tag fun c => { c with eqLost := sat16 (c.eqLost + n) }
  if !c.eqEn then s
  else if (c.eqWrite - c.eqRead).toNat = 2 ^ c.eqLog2n then lose 1 s
  else
    let off := c.eqBase + BitVec.ofNat 64 (c.eqWrite.toNat % 2 ^ c.eqLog2n * 32)
    match (s.lookupTlb none 4 tag 0 off true).2 with
    | .leaf t => (s.deviceWrite tag (t.frame + off.toNat % 65536) bs).modCtx tag fun c => { c with eqWrite := c.eqWrite + 1 }
    | .fault .pageMiss =>
      match c.pending 0 (off.toNat / 65536) with
      | some _ => lose 1 s
      | none => lose 2 (s.modCtx tag fun c => c.newRequest 0 (off.toNat / 65536))
    | .fault _ => lose 1 s

/-- Queue the service request of a page miss, or join the pending one; the request's sequence (R195, R398, R399). The record's PLACE is that of
the access, or the own node's where the access names none. -/
def State.svcReq (s : State) (tag space : Nat) (off : DWord) (o : Origin) : State × Nat :=
  let c := s.ctx tag
  let page := off.toNat / 65536
  match c.pending space page with
  | some n => (s, n)
  | none =>
    let n := (c.srSeq + 1) % 2 ^ 32
    let s := s.modCtx tag fun c => c.newRequest space page
    (s.pushRecord tag (faultRecord 0 1 1 o.launchId o.pc (BitVec.ofNat 64 (page * 65536)) (BitVec.ofNat 32 n)
      ((o.addr.map Prod.snd).getD (BitVec.ofNat 16 (0xFFF8 + space)))), n)

/-! ## Event counters (R325) -/

/-- Whether a dependence on an event counter is met: (counter − target), read signed, is 0 or more. -/
def depMet (c : Ctx) (counter target : Nat) : Bool :=
  decide (0 ≤ (c.ectr.getD counter 0#32 - BitVec.ofNat 32 target).toInt)
/-- The dependences of a packet that are met now stay met for it. -/
def Head.latch (h : Head) (c : Ctx) : Head :=
  { h with met := (List.range h.pkt.waits.length).map fun i =>
      h.met.getD i false || depMet c (h.pkt.waits.getD i (0, 0)).1 (h.pkt.waits.getD i (0, 0)).2 }
/-- Change an event counter of a context: the queue heads of the context test their dependences. -/
def State.countEvent (s : State) (tag n : Nat) (f : Word → Word) : State :=
  let s := s.modCtx tag fun c => { c with ectr := updAt c.ectr n f }
  let c := s.ctx tag
  { s with queues := s.queues.map fun q => if q.ctx = tag then { q with head := q.head.map fun h => h.latch c } else q }

/-! ## Tokens (R372, R375, R376) -/

/-- The token of a cause and a sequence number (R372, R375). -/
def tokenBits (cause seq : Nat) : Word :=
  BitVec.ofNat 32 (cause % 64 * 2 ^ 26 + seq / 65536 % 1024 * 2 ^ 16 + seq % 65536)
/-- The cause code of a token (R372). -/
def tokenCause (t : Word) : Nat := t.toNat / 2 ^ 26

/-- A Contact Sheet entry (R376). -/
def csEntry (cause seq cycle : Nat) (o : Origin) : List Byte :=
  let flag (b : Bool) (n : Nat) := if b then n else 0
  [BitVec.ofNat 8 cause, BitVec.ofNat 8 (1 + flag o.addr.isSome 2 + flag o.tile.isSome 4 + flag o.remote 8)]
    ++ natLE 2 (seq / 65536 % 1024) ++ natLE 4 o.lanes.toNat ++ natLE 8 o.pc.toNat ++ natLE 4 o.launchId ++ natLE 4 o.cluster
    ++ natLE 1 o.rank ++ natLE 1 o.warp ++ natLE 1 (if o.lanes = 0#32 then 0xFF else o.lanes.lowest) ++ [0#8]
    ++ natLE 4 o.hwloc.toNat ++ natLE 8 ((o.addr.map fun a => a.1.toNat).getD 0) ++ natLE 2 ((o.addr.map fun a => a.2.toNat).getD 0)
    ++ natLE 1 ((o.tile.map fun t => t.1).getD 0) ++ natLE 1 ((o.tile.map fun t => t.2.1).getD 0)
    ++ natLE 2 ((o.tile.map fun t => t.2.2).getD 0) ++ [0#8, 0#8] ++ natLE 8 cycle ++ natLE 4 o.aux.toNat ++ natLE 4 0

/-- Poison(cause): take a sequence number, write the entry, form the token (R375); or the token that the instruction has made for the cause
already (R215). -/
def State.mkToken (s : State) (tag : Nat) (cause : Cause) (o : Origin) : State × Word :=
  match o.share.find? fun x => x.1 == cause.code with
  | some x => (s, x.2)
  | none =>
  let c := s.ctx tag
  let seq := c.csSeq.toNat
  let s := s.modCtx tag fun c => { c with csSeq := c.csSeq + 1 }
  let tok := tokenBits cause.code seq
  if !c.csEn then (s, tok)
  else
    let off := c.csBase + BitVec.ofNat 64 (seq % 65536 * 64)
    match (s.lookupTlb none o.die tag 0 off true).2 with
    | .leaf t => (s.deviceWrite tag (t.frame + off.toNat % 65536) (csEntry cause.code seq (s.ctr o.die) o), tok)
    | .fault f =>
      let s := s.modCtx tag fun c => { c with csDrop := sat16 (c.csDrop + 1) }
      (if f = .pageMiss then (s.svcReq tag 0 off { o with addr := none }).1 else s, tok)

/-- Poison(cause) of an access that met a fault: a page miss queues its request first, and the entry's AUX names it. -/
def State.faultToken (s : State) (tag space : Nat) (cause : Cause) (off : DWord) (place : BitVec 16) (o : Origin) :
    State × Word :=
  let o := { o with addr := some (off, place) }
  if cause = .pageMiss then
    let r := s.svcReq tag space off o
    r.1.mkToken tag cause { o with aux := BitVec.ofNat 32 r.2 }
  else s.mkToken tag cause o

/-! ## Flag events (R378) -/

/-- Count causes in a region state and set its flag; `first` is the token of the event, if it concerns one. -/
def Region.count (r : Region) (codes : List Nat) (first : Option Word) (sreq : Nat) : Region :=
  { r with
    flag := true
    causes := codes.foldl (fun m c => m ||| (1#64 <<< c)) r.causes
    nsvc := r.nsvc || codes.any fun c => !causeServiceable c
    first := if r.flag then r.first else first.getD r.first
    sreq := if codes.contains 1 then sreq else r.sreq }

/-- A flag event of a warp (R378). -/
def State.flagEvent (s : State) (tag : Nat) (w : WarpRef) (codes : List Nat) (first : Option Word) : State :=
  s.modWarp w fun x => { x with region := x.region.count codes first (s.ctx tag).srSeq }
/-- A flag event of a warp that concerns the given tokens, the first of which is the event's token. -/
def State.flagTokens (s : State) (tag : Nat) (w : WarpRef) (ts : List Word) : State :=
  s.flagEvent tag w (ts.map tokenCause) ts.head?
/-- The owner tag of the issuing warp. -/
def State.myTag (s : State) : Nat := s.myWg.tag
/-- A flag event of the issuing warp that concerns the given tokens. -/
def State.flagMine (s : State) (ts : List Word) : State := s.flagTokens s.myTag s.warp.ref ts

/-! ## The Drying Rack (R379) -/

/-- A write that the Rack is to take: its entry, whose sequence is still to be given, and the lanes it stands for. -/
structure Withheld where
  entry : RackEntry
  lanes : Mask
  deriving DecidableEq, Repr, Inhabited

/-- The order of the entries of one instruction: those with no address by lowest lane, then the others by sector address. -/
def Withheld.before (a b : Withheld) : Bool :=
  match a.entry.off, b.entry.off with
  | none, none => decide (a.lanes.lowest < b.lanes.lowest)
  | none, some _ => true
  | some _, none => false
  | some x, some y => decide (x.toNat < y.toNat)
/-- Insert a withheld write in that order. -/
def insertWithheld (a : Withheld) : List Withheld → List Withheld
  | [] => [a]
  | b :: bs => if a.before b then a :: b :: bs else b :: insertWithheld a bs

/-- The core of a workgroup. -/
def State.coreOf (s : State) (wg : Nat) : Nat := ((s.wgOf wg).getD default).core

/-- Put the withheld writes of one instruction of the issuing warp into its core's Rack, in order; where it has too few free
entries the rest are dropped, which is a flag event with one RACK_OVERFLOW token (R379). -/
def State.rackHold (s : State) (ws : List Withheld) (pc : DWord) : State :=
  let core := s.coreOf s.warp.ref.wg
  let sorted := ws.foldl (fun l w => insertWithheld w l) []
  let free := 512 - (s.coreAt core).rack.length
  let seq0 := s.warp.region.heldSeq
  let kept := (List.range (min free sorted.length)).filterMap fun i => (sorted[i]?).map fun w => { w.entry with seq := seq0 + i }
  let s := s.modCore core fun c => { c with rack := c.rack ++ kept }
  let s := s.modFocus fun w => { w with region := { w.region with heldSeq := seq0 + kept.length } }
  let rest := sorted.drop free
  if rest.isEmpty then s
  else
    let m := rest.foldl (fun m w => m ||| w.lanes) 0#32
    let r := s.mkToken s.myTag .rackOverflow (s.here m pc)
    r.1.flagMine [r.2]

/-! ## Reading a sector (R396, R397, R400) -/

/-- The home die of a physical address (R193). -/
def homeDie (pa : Nat) : Nat := pa / 2 ^ 38 % 4

/-- Sets of 16 ways of 128-byte lines in a die's stacked SRAM, 1.5 GiB (R12; log 45). -/
def l2Sets : Nat := 786432
/-- The number of 1 MiB regions of a die's stacked SRAM, 1.5 GiB (R12). -/
def sramRegions : Nat := 1536
/-- The ways of L2 that the lines of a function fill: those of its mask where it is a virtual function with a nonzero one, else those that no
mask claims (R359). -/
def Service.fillWays (v : Service) (func : Nat) : List Nat :=
  let mask (f : Nat) : BitVec 16 := if f < 2 then 0#16 else (v.funcs.getD f default).ways
  (List.range 16).filter fun k => if mask func = 0#16 then (List.range 18).all fun f => !(mask f).getLsbD k else (mask func).getLsbD k
/-- Whether a fill may take a way of a set: it is not quarantined, and no error stands in the line that it holds (R397). -/
def State.mayFill (s : State) (die set way : Nat) : Bool :=
  !s.svc.quarantine.contains (die, set, way)
    && !s.l2.any fun l => l.die == die && l.set == set && l.way == way && s.svc.errors.any fun e => e.sector / 4 == l.line
/-- The lines of L2 once a read under an owner tag has left its line there, or has not: a page of MT 1 or 2 never (R200, R350, R359). The line
that stood in the way goes; a line is encoded with its region's code (R394; log 45). -/
def State.filledL2 (s : State) (tag mt pa : Nat) : List L2Line :=
  let die := homeDie pa
  let line := pa / 128
  if mt ≠ 0 then s.l2
  else if (s.l2Line pa).isSome then s.l2.map fun l => if l.line = line then { l with tag := tag } else l
  else
    let set := Config.l2Set line % l2Sets
    let ways := (s.svc.fillWays (s.ctx tag).func).filter (s.mayFill die set)
    if ways.isEmpty || Config.l2Fill s.tick 0 % 2 == 1 then s.l2
    else
      let way := ways.getD (Config.l2Fill s.tick 1 % ways.length) 0
      let strong := (s.svc.dies.getD die DieHealth.fresh).strong.contains (Config.l2Region set way % sramRegions)
      { die := die, set := set, way := way, line := line, tag := tag, strong := strong }
        :: s.l2.filter fun l => !(l.die == die && l.set == set && l.way == way)
/-- A read of a page of type `mt` has been served. -/
def State.fillL2 (s : State) (tag mt pa : Nat) : State := { s with l2 := s.filledL2 tag mt pa }
/-- Lines for which `f` holds leave L2. -/
def State.dropL2 (s : State) (f : Nat → Bool) : State := { s with l2 := s.l2.filter fun l => !f l.line }
/-- The array that serves a read of a page of the given MT, by the codes of LEVEL (R400): 2 a registered stash line, else 0 L2, 1 LPDDR5X or
3 another. L2 serves no line that it does not hold, and memory none that it holds; a page of MT 2 is in neither L1 nor L2 (R200; log 12). -/
def State.servedLevel (s : State) (mt pa : Nat) : Nat :=
  if (s.locate pa).isSome then 2
  else if 2 ≤ mt then 1
  else [if (s.l2Line pa).isSome then 0 else 1, 3].getD (Config.choice s.tick % 2) 3

/-- An armed injection fires (R400). -/
def State.fireInjection (s : State) (tag pa : Nat) (o : Origin) : State × Option Word :=
  let c := s.ctx tag
  let s := s.modCtx tag fun c => { c with injArm := false }
  let s := s.modDie (homeDie pa) fun d => { d with injected := d.injected + 1 }
  if c.injUnc then
    let r := s.mkToken tag .injected o
    (r.1.pushRecord tag (faultRecord 0 0x12 5 o.launchId o.pc ((o.addr.map Prod.fst).getD 0#64) r.2
      ((o.addr.map Prod.snd).getD 0#16)), some r.2)
  else (s, none)

/-- A correction is counted. More than 16 within 2^32 cycles switch a 1 MiB region of stacked SRAM to the strong code (R394); `now` is the die's
counter, and `region` is none for an error of another array. -/
def DieHealth.correct (d : DieHealth) (region : Option Nat) (now : Nat) : DieHealth :=
  let d := { d with corrected := d.corrected + 1 }
  match region with
  | none => d
  | some r =>
    let cs := (r, now) :: d.corrections.filter fun c => decide (now < c.2 + 2 ^ 32)
    let d := { d with corrections := cs }
    if 16 < (cs.filter fun c => c.1 == r).length ∧ r ∉ d.strong then { d with strong := r :: d.strong } else d

/-- The health state only worsens between resets; WORN and DEGRADED set REPLACE (R401). -/
def Service.worsen (v : Service) (h : Nat) : Service :=
  let h' := max v.health h
  { v with health := h', replace := v.replace || h' == 1 || h' == 2 }
/-- WORN where a die's counts or a failed plane say so (R401). -/
def Service.wear (v : Service) : Service :=
  if v.planes != 0#18 || v.dies.any (fun d => decide (4096 < d.quarantined) || decide (1024 < d.retired)
      || decide (sramRegions < 4 * d.strong.length)) then v.worsen 1 else v

/-- The error that a sector held is gone. -/
def State.clearError (s : State) (pa : Nat) : State :=
  s.modSvc fun v => { v with errors := v.errors.filter fun e => e.sector != pa / 32 }
/-- The die whose array holds an error (R402): the home die's, or, of a core's, that of the stash line's core or of the reading core. -/
def State.errorDie (s : State) (die pa : Nat) : Nat :=
  if ((s.errorAt pa).map LatentError.inCore).getD false then
    match s.locate pa with
    | some (wg, _, _, _) => dieOf ((s.wgOf wg).getD default).core
    | none => die
  else homeDie pa
/-- The error in a sector is uncorrectable, and is counted (R402). -/
def State.countError (s : State) (die pa : Nat) : State :=
  s.modDie (s.errorDie die pa) fun d => { d with uncorrectable := d.uncorrectable + 1 }
/-- The error in a sector is found and is uncorrectable. -/
def State.foundError (s : State) (die pa : Nat) : State := (s.countError die pa).clearError pa
/-- A corrected error is counted, and may switch its region to the strong code (R394, R396). -/
def State.correctError (s : State) (die pa : Nat) : State :=
  let region := ((s.errorAt pa).bind LatentError.region).filter fun r => decide (r < sramRegions)
  let d := s.errorDie die pa
  (((s.clearError pa).modDie d fun h => h.correct region (s.ctr d)).modSvc Service.wear)
/-- The clean copy that holds an error is invalidated: the line of L2, or of a stash, which becomes ABSENT (R396). -/
def State.dropCopy (s : State) (pa : Nat) : State :=
  match s.locate pa with
  | some (wg, e, line, _) => s.modWg wg fun g => { g with smap := updAt g.smap e fun m => { m with lines := m.lines.filter fun l => l.1 != line } }
  | none => s.dropL2 fun l => l == pa / 128
/-- A word of core storage is found to hold an error: it is counted at the core's die (R396, R402). -/
def State.foundWord (s : State) (die : Nat) (x : WordError) : State :=
  (s.modSvc fun v => { v with wordErrors := v.wordErrors.filter (· != x) }).modDie die fun d =>
    if x.soft then { d with corrected := d.corrected + 1 } else { d with uncorrectable := d.uncorrectable + 1 }
/-- Note that a frame holds a LINE_POISON sector (R358, R396). -/
def Service.notePoison (v : Service) (frame : Nat) : Service :=
  { v with lpFrames := if frame ∈ v.lpFrames then v.lpFrames else frame :: v.lpFrames }
/-- The owner tag that the dirty line of a physical address carries: a stash line, or one in L1 or L2 (R350). -/
def State.lineTag (s : State) (pa : Nat) : Option Nat :=
  match s.locate pa with
  | some (wg, e, line, _) => ((s.wgOf wg).bind fun g => g.smap[e]?).bind fun m => (m.owners.find? fun o => o.1 == line).map Prod.snd
  | none => (s.mem.owners.find? fun e => e.1 == pa / 128).map Prod.snd
/-- That tag; of a line that carries none, the tag of the access that found the error in it. -/
def State.dirtyOwner (s : State) (tag pa : Nat) : Nat := (s.lineTag pa).getD tag
/-- A context is being killed for an error in its dirty line: CONTEXT_KILL comes next (R397). -/
def State.killRaised (s : State) (tag : Nat) : Bool := s.inputs.any fun x => x.i == .contextKill tag 5
/-- The owner of a dirty line is to be killed, once, for the error in it; from now on every read of the line finds the error (R397). -/
def State.killOwner (s : State) (die tag pa : Nat) : State :=
  let owner := s.dirtyOwner tag pa
  let s := s.modSvc fun v => { v with errors := v.errors.map fun e => if e.kind = .dirtyLine ∧ e.sector / 4 = pa / 128 then { e with found := true } else e }
  if (s.ctx owner).live ∧ s.killRaised owner = false then (s.countError die pa).raise (.contextKill owner 5) else s

/-- A sector of LPDDR5X becomes a poison sector with a token, in the view of a die (R396). -/
def State.poisonStored (s : State) (die tag pa : Nat) (t : Word) : State :=
  (s.modMem fun d => { d.enter die (sectorPoison (pa / 32 * 32) t) with owners := (pa / 128, tag) :: d.owners.filter fun o => o.1 != pa / 128 }).modSvc fun v =>
    v.notePoison (pa / 65536)
/-- A read finds the error that a sector holds (R396). The token that the access receives in place of the sector, if any. Until the
kill that a dirty line causes, every read of the line by another context receives LINE_POISON (R397); the owner's own receives nothing: no entry is
written, and the step is undone by `State.orKilled` (R411). -/
def State.meetError (s : State) (die tag pa : Nat) (k : ErrorKind) (o : Origin) : State × Option Word :=
  match k with
  | .corrected => (s.correctError die pa, none)
  | .cleanCopy =>
    let r := ((s.foundError die pa).dropCopy pa).mkToken tag .eccUncorrectable o
    (r.1, some r.2)
  | .dram =>
    let r := (s.foundError die pa).mkToken tag .linePoison o
    (r.1.poisonStored die tag pa r.2, some r.2)
  | .dirtyLine =>
    if s.dirtyOwner tag pa = tag ∧ (s.ctx tag).live then
      ((s.killOwner die tag pa).modSvc fun v => { v with lost := some (die, tag, pa) }, some (tokenBits Cause.linePoison.code 0))
    else
      let r := s.mkToken tag .linePoison o
      (r.1.killOwner die tag pa, some r.2)
/-- An armed injection is met by a read of its sector for its context from the array of its LEVEL (R400; log 12). -/
def State.injects (s : State) (tag mt pa : Nat) : Bool :=
  (s.ctx tag).injArm && (s.ctx tag).injSector == pa / 32 && s.servedLevel mt pa == (s.ctx tag).injLevel

/-! ## Translation with the errors that a walk meets (R195, R396) -/

/-- The walker's read of one entry meets the error that its sector holds: R396 with the walker's own token where it makes one (R414), since the
access that asked for the walk receives the ECC_UNCORRECTABLE of R195. An error in the context's own dirty line undoes the step (R411). -/
def State.walkError (s : State) (die tag a : Nat) : State :=
  match (s.errorAt a).map LatentError.kind with
  | none => s
  | some .corrected => s.correctError die a
  | some .cleanCopy => (s.foundError die a).dropCopy a
  | some .dram =>
    let r := (s.foundError die a).mkToken tag .linePoison (Origin.device die)
    r.1.poisonStored die tag a r.2
  | some .dirtyLine =>
    let t := s.killOwner die tag a
    if s.dirtyOwner tag a = tag ∧ (s.ctx tag).live then t.modSvc fun v => { v with lost := some (die, tag, a) } else t
/-- The walker's reads of the entries of a path: an armed injection fires at one of them in place of an error, and an uncorrectable one fails
the walk as an error would (R195, R400; log 12). Whether one has. -/
def State.walkReads (s : State) (die tag : Nat) (as : List Nat) : State × Bool :=
  as.foldl (fun (r : State × Bool) a =>
    if r.1.injects tag 0 a then
      let q := r.1.fireInjection tag a (Origin.device die)
      (q.1, r.2 || q.2.isSome)
    else (r.1.walkError die tag a, r.2)) (s, false)
/-- A translation (R195, R196), with what becomes of the errors that a walk meets. -/
def State.lookup (s : State) (core : Option Nat) (die tag space : Nat) (off : DWord) (write : Bool) : State × WalkRes :=
  let r := s.lookupTlb core die tag space off write
  let hit := (core.bind fun c => s.tlbHit c tag space (off.toNat / 65536)).isSome
  if (s.svc.errors.isEmpty && !(s.ctx tag).injArm) || hit then r
  else match (s.ctx tag).roots.getD space none with
    | none => r
    | some root =>
      let path := walkPath (s.tableWord die) off.toNat 5 root
      let q := s.walkReads die tag path
      -- a walk that an injection fails fills no TLB
      if q.2 then (q.1, .fault .eccUncorrectable) else ((r.1.walkReads die tag path).1, r.2)

/-! ## Fills of stash lines (R207) -/

/-- The origin of a fill that an access asked for: no thread issued it (R414). -/
def Origin.fill (o : Origin) : Origin := { o with lanes := 0#32, warp := 0xFF }
/-- One sector of a line that is being filled from memory: an armed injection fires, or the error it holds is handled as a read's; and the token
with which the fill fails, if it does. A sector that becomes a poison sector here does not fail it (R207, R396, R400). -/
def State.fillSector (s : State) (die tag pa : Nat) (o : Origin) : State × Option Word :=
  let c := s.ctx tag
  if c.injArm && c.injSector == pa / 32 && c.injLevel == 1 then s.fireInjection tag pa o
  else match (s.errorAt pa).map LatentError.kind with
    | none => (s, none)
    | some .corrected => (s.correctError die pa, none)
    | some .dram =>
      let r := (s.foundError die pa).mkToken tag .linePoison o.fill
      (r.1.poisonStored die tag pa r.2, none)
    | some k => s.meetError die tag pa k o
/-- The translation of a page of an entry for a fill (R207): the token of the row of R195 that it meets, if any. The fill itself reads the page
that was registered. -/
def State.readyPage (s : State) (tag : Nat) (o : Origin) (wg e page : Nat) : State × Option Word :=
  let g := (s.wgOf wg).getD default
  let off := BitVec.ofNat 64 ((g.smap.getD e default).gbase + page * 4096)
  let r := s.lookup (some g.core) (dieOf g.core) g.tag 0 off false
  match r.2 with
  | .leaf _ => (r.1, none)
  | .fault c =>
    let t := r.1.faultToken tag 0 c off 0xFFF8#16 o
    (t.1, some t.2)
/-- Fill an ABSENT registered line for an access of a context (R207). A fill that meets a fault leaves the line ABSENT and gives the access
its token; the next touch tries again. -/
def State.readyLine (s : State) (tag : Nat) (o : Origin) (wg e line : Nat) : State × Option Word :=
  if ((s.wgOf wg).bind fun g => g.smap[e]?).isNone || s.lineHeld wg e line then (s, none)
  else
    let p := s.readyPage tag o wg e (line / 32)
    match p.2 with
    | some t => (p.1, some t)
    | none =>
      let g := (p.1.wgOf wg).getD default
      let pa := (g.smap.getD e default).pages.getD (line / 32) 0 * 4096 + line % 32 * 128
      let r := (List.range 4).foldl (fun (r : State × Option Word) k =>
        let q := r.1.fillSector (dieOf g.core) tag (pa + 32 * k) o
        (q.1, r.2 <|> q.2)) (p.1, none)
      match r.2 with
      | some t => (r.1, some t)
      | none => (r.1.fillLine wg e line tag, none)
/-- Fill the registered line that a stash offset of a workgroup lies in, if there is one, for engine work (R207, R414). -/
def State.readyStash (s : State) (tag wg off : Nat) (o : Origin) : State × Option Word :=
  match (s.wgOf wg).bind fun g => g.mappedAt off with
  | some (e, line, _) => s.readyLine tag o wg e line
  | none => (s, none)
/-- A physical sector write of an agent or a thread. A registered line that it touches is filled first, unless the access writes all of it
(`whole`). Where the fill meets a fault, whose token it gives, the line stays ABSENT and nothing is written (R207, R246; log 58). -/
def State.physPut (s : State) (die tag : Nat) (o : Origin) (whole : Bool) (w : SectorWrite) : State × Option Word :=
  let r := match s.locate w.addr with
    | some (wg, e, line, _) => if whole then (s, none) else s.readyLine tag o wg e line
    | none => (s, none)
  match r.2 with
  | some t => (r.1, some t)
  | none => (r.1.rawWrite die tag w, none)
/-- A physical sector write of a device agent. -/
def State.physWrite (s : State) (die tag : Nat) (w : SectorWrite) : State := (s.physPut die tag (Origin.device die) false w).1
/-- A write by an engine to a workgroup's stash by stash offset; `whole` where the engine writes all of the line, whose fill is then skipped and
meets nothing (R207, R246). The token of a fault that the fill meets, where nothing is written. -/
def State.stashPut (s : State) (tag : Nat) (o : Origin) (whole : Bool) (wg : Nat) (w : SectorWrite) : State × Option Word :=
  let r := if whole then (s, none) else s.readyStash tag wg w.addr o
  match r.2 with
  | some t => (r.1, some t)
  | none => (r.1.stashWrite wg tag w, none)

/-- Make the sector at a physical address ready for a read of a context on a die, through a page of the given MT: fill its stash line (R207), fire
an armed injection (R400), find an error (R396). The token that the access receives in place of the sector's contents, if any. -/
def State.access (s : State) (die tag pa : Nat) (o : Origin) (mt : Nat := 0) : State × Option Word :=
  let at' := s.locate pa
  let r := match at' with
    | some (wg, e, line, _) => s.readyLine tag o wg e line
    | none => (s, none)
  match r.2 with
  | some t => (r.1, some t)
  | none =>
    let s := r.1
    if s.injects tag mt pa then s.fireInjection tag pa o
    else
      let u := if at'.isSome then s else s.fillL2 tag mt pa
      match s.errorAt pa with
      | some e =>
        -- a read that a stash line serves does not read what lies below it
        if at'.isSome && !e.inCore then (u, none) else u.meetError die tag pa e.kind o
      | none => (u, none)
/-- An engine's read of a sector of a workgroup's stash by stash offset: of a registered line it is a read of that line (R207, R396, R400). -/
def State.readStash (s : State) (tag wg off : Nat) (o : Origin) : State × Option Word :=
  let r := s.readyStash tag wg off o
  match r.2 with
  | some t => (r.1, some t)
  | none => match (r.1.wgOf wg).bind fun g => (g.mappedAt off).map fun m => (dieOf g.core, m.2.2) with
    | some (die, pa) => r.1.access die tag pa o
    | none => (r.1, none)

/-- A 32-bit word at a physical address, after `access`. -/
def State.wordAt (s : State) (die pa : Nat) : Val :=
  let p := s.readPlace die pa
  p.1.word p.2
/-- Bytes at a physical address, after `access`. -/
def State.bytesAt (s : State) (die pa n : Nat) : List Byte :=
  let p := s.readPlace die pa
  p.1.bytes p.2 n
/-- The token of the sector at a physical address, after `access`. -/
def State.tokenOf (s : State) (die pa : Nat) : Option Word :=
  let p := s.readPlace die pa
  p.1.token p.2

/-! ## Reads of context memory by engines (R414, R417) -/

/-- The outcome of an engine's read of a run of bytes. -/
inductive EngineRead where
  | bytes (bs : List Byte)
  /-- A translation row of R195 other than the last, at an offset. -/
  | fault (c : Cause) (off : DWord)
  /-- A poison sector, or a token that the read received. -/
  | token (t : Word)
  deriving DecidableEq, Repr, Inhabited

/-- Read `n` bytes at an offset of SPACE 0 of a context, sector by sector; `fuel` bounds the number of sectors. -/
def State.engineBytes (s : State) (core : Option Nat) (die tag : Nat) (o : Origin) :
    Nat → DWord → Nat → State × EngineRead
  | 0, _, _ => (s, .bytes [])
  | fuel + 1, off, n =>
    if n = 0 then (s, .bytes [])
    else
      let r := s.lookup core die tag 0 off false
      match r.2 with
      | .fault c => (r.1, .fault c off)
      | .leaf t =>
        let pa := t.frame + off.toNat % 65536
        -- an agent of the bridge die reads in the view of the home die (R264)
        let die' := if die = 4 then homeDie pa else die
        let a := r.1.access die' tag pa { o with addr := some (off, 0xFFF8#16) } t.mt
        match a.2 with
        | some tok => (a.1, .token tok)
        | none =>
          match a.1.tokenOf die' pa with
          | some tok => (a.1, .token tok)
          | none =>
            let k := min n (32 - pa % 32)
            let bs := a.1.bytesAt die' pa k
            let rest := a.1.engineBytes core die tag o fuel (off + BitVec.ofNat 64 k) (n - k)
            match rest.2 with
            | .bytes more => (rest.1, .bytes (bs ++ more))
            | e => (rest.1, e)

/-- Write bytes at an offset of SPACE 0 of a context on a die; the fault met, if any. Nothing is written where one is met. -/
def State.engineWrite (s : State) (core : Option Nat) (die tag : Nat) (off : DWord) (bs : List Byte) :
    State × Option Cause :=
  let r := s.lookup core die tag 0 off true
  let e := r.1.lookup core die tag 0 (off + BitVec.ofNat 64 (bs.length - 1)) true
  match r.2, e.2 with
  | .fault c, _ => (e.1, some c)
  | .leaf _, .fault c => (e.1, some c)
  | .leaf t, .leaf t' =>
    let k := min bs.length (65536 - off.toNat % 65536)
    let s := (sectorRun 4096 (t.frame + off.toNat % 65536) (bs.take k)).foldl (fun s w => s.physWrite die tag w) e.1
    ((sectorRun 4096 t'.frame (bs.drop k)).foldl (fun s w => s.physWrite die tag w) s, none)

end Sys2Proof.Machine
end

