-- ==== Sys2Proof/Machine/Operands.lean ====
section
/-!
DEFINITION. Issue of an instruction: the active group (R23, R298, R299), operand reads (R44 to R46, R50, R54), result writes
(R45, R47, R50, R54), latch filling (R52, R53), hints (R58 to R64), deschedule points (R55, R56) and suppressed words (R78).
-/
namespace Sys2Proof.Machine
open Sys2Proof

/-! ## Operand codes -/

/-- A cabinet code (R44). -/
def isCab (c : Code) : Bool := decide (c.toNat < 0xF0)
/-- A drawer code. -/
def isDrawer (c : Code) : Bool := decide (0xF0 ≤ c.toNat) && decide (c.toNat < 0xF8)
/-- A latch code. -/
def isLatch (c : Code) : Bool := decide (0xF8 ≤ c.toNat) && decide (c.toNat < 0xFB)
/-- The codes of a pair; z stands for both words (R76). -/
def pairCodes (c : Code) : List Code := if c = 0xFB#8 then [c, c] else [c, c + 1]
/-- The codes of a quad or a base of four (R76). -/
def quadCodes (c : Code) : List Code := if c = 0xFB#8 then [c, c, c, c] else [c, c + 1, c + 2, c + 3]

/-! ## The group that issues (R23, R298, R299) -/

/-- The lanes that have not exited. -/
def Warp.live (w : Warp) : Mask := ~~~ w.exited
/-- The PC of a lane. -/
def Warp.pcOf (w : Warp) (l : Nat) : DWord := w.pcs.getD l 0#64
/-- The PCs of the lanes that have not exited. -/
def Warp.livePcs (w : Warp) : List DWord := ((List.range 32).filter fun l => w.live.has l).map w.pcOf
/-- The lowest PC of a list. -/
def minPc : List DWord → Option DWord
  | [] => none
  | p :: ps => match minPc ps with
    | none => some p
    | some q => if p.toNat < q.toNat then some p else some q
/-- The live lanes whose PC is `pc`. -/
def Warp.groupAt (w : Warp) (pc : DWord) : Mask := maskOf fun l => w.live.has l && w.pcOf l == pc
/-- Whether all live lanes hold one PC (R298). -/
def Warp.converged (w : Warp) : Bool := match w.livePcs with
  | [] => true
  | p :: ps => ps.all fun q => q == p
/-- Whether the next issue must be a switched issue (R299). -/
def Warp.mustSwitch (w : Warp) : Bool := w.switched.isNone && !w.converged && decide (1023 ≤ w.divCount)
/-- The group that issues next: that of a switched issue in progress, else the group with the lowest PC (R298, R299). -/
def Warp.group (w : Warp) : Option (Mask × DWord) :=
  match w.switched with
  | some m => some (w.groupAt (w.pcOf m.lowest), w.pcOf m.lowest)
  | none => if w.mustSwitch then none else (minPc w.livePcs).map fun p => (w.groupAt p, p)
/-- Whether the warp may issue: it runs and waits for nothing (R300). -/
def Warp.mayIssue (w : Warp) : Bool := w.status == .running && w.wait == .none

/-- D and M as the choice of an issue leaves them (R299). -/
def Warp.account (w : Warp) : Warp :=
  if w.switched.isSome then w
  else if w.converged then { w with divCount := 0, switchMark := 0#64 }
  else { w with divCount := w.divCount + 1 }

/-- The PCs of the lanes of a mask become `f`. -/
def Warp.setPcs (w : Warp) (m : Mask) (f : Nat → DWord) : Warp :=
  { w with pcs := lanes32 fun l => if m.has l then f l else w.pcOf l }

/-! ## Hint state -/

/-- What a switched issue discards (R58, R59, R62, R299). An XIMM issued before it adds nothing to the next instruction (R81; log 69). -/
def Hints.discard (h : Hints) : Hints :=
  { h with life := 0#24, lifePos := 8, mod := none, yp := false, delay := 0, xiValid := false, xiFresh := false, scale := none
           pins := [0, 0, 0] }

/-- The hint state after a non-hint instruction: it takes a pending MOD, a position of LIFE, the SCHED and the offset of R81;
each pin counts one instruction (R60, R61, R63, R64). -/
def Hints.afterInstr (h : Hints) : Hints :=
  { h with mod := none, lifePos := if h.lifePos < 8 then h.lifePos + 1 else 8, yp := false, delay := 0, xiFresh := false
           pins := h.pins.map (· - 1) }
/-- The hint state after a hint: each pin counts one instruction, and a delay has been served. -/
def Hints.afterHint (h : Hints) : Hints := { h with pins := h.pins.map (· - 1), delay := 0 }

/-- What a warp is after a non-hint instruction has issued; a switched issue ends with it (R299). -/
def Warp.afterInstr (w : Warp) : Warp :=
  match w.switched with
  | none => { w with hints := w.hints.afterInstr }
  | some _ => { w with hints := w.hints.discard, switched := none, divCount := 0 }

/-- R56, with the return stack of R314, the mark of R299 and the arm of R182: what a deschedule point clears. -/
def Warp.deschedule (w : Warp) : Warp :=
  { w with
    latch := w.latch.map fun x => { x with valid := 0#32, pend := none }
    drawer := w.drawer.map fun x => { x with valid := 0#32, pend := none }
    hints := { w.hints with xiValid := false, scale := none, pins := [0, 0, 0], life := 0#24, lifePos := 8, delay := 0 }
    pend := w.pend.map fun p => { p with dropped := true }
    switchMark := 0#64, retStack := [], perturb := none, yieldCount := 0, atPoint := true }

/-! ## Reading operands -/

/-- What an operand delivers: its lane values and the shape it contributes (R46). -/
structure Opd where
  lanes : List Val
  shape : Shape
  deriving DecidableEq, Repr, Inhabited

/-- Lane values in which some lanes carry a token. -/
def withToken (m : Mask) (t : Word) (vs : List Val) : List Val :=
  lanes32 fun l => if m.has l then Val.poison t else laneOf vs l

/-- Read a drawer entry or a latch: a lane whose bit is clear reads STALE_OPERAND, one token for the read (R45). -/
def State.readSlot (s : State) (act : Mask) (pc : DWord) (x : Slot) : State × Opd :=
  let bad := act &&& ~~~ x.valid
  if bad = 0#32 then (s, { lanes := x.lanes, shape := x.shape })
  else
    let r := s.mkToken s.myTag .staleOperand (s.here bad pc)
    (r.1, { lanes := withToken bad r.2 x.lanes, shape := x.shape })

/-- Read one operand code. `ill` is the token that the instruction's reads at or above N share (R50). -/
def State.readCode (s : State) (act : Mask) (pc : DWord) (ill : Option Word) (c : Code) : State × Opd × Option Word :=
  if isCab c then
    if c.toNat < s.warp.n then
      let r := s.warp.cab.getD c.toNat Reg.fresh
      if r.dead then
        let t := s.mkToken s.myTag .deadRead (s.here act pc)
        (t.1, { lanes := withToken act t.2 r.lanes, shape := r.shape }, ill)
      else (s, { lanes := r.lanes, shape := r.shape }, ill)
    else
      match ill with
      | some t => (s, { lanes := splat (Val.poison t), shape := .u }, ill)
      | none =>
        let t := s.mkToken s.myTag .illegalOperand (s.here act pc)
        (t.1, { lanes := splat (Val.poison t.2), shape := .u }, some t.2)
  else if isDrawer c then
    let r := s.readSlot act pc (s.warp.drawer.getD (c.toNat - 0xF0) Slot.fresh)
    (r.1, r.2, ill)
  else if isLatch c then
    let r := s.readSlot act pc (s.warp.latch.getD (c.toNat - 0xF8) Slot.fresh)
    (r.1, r.2, ill)
  else if c = 0xFC#8 then (s, { lanes := lanes32 fun l => Val.clean (BitVec.ofNat 32 l), shape := .a }, ill)
  else if c = 0xFD#8 then
    let r := s.readSlot act pc
      { lanes := splat (Val.clean s.warp.hints.xi), shape := .u, valid := if s.warp.hints.xiValid then fullMask else 0#32, pend := none }
    (r.1, r.2, ill)
  else (s, { lanes := splat Val.zero, shape := .u }, ill)

/-- Read operand codes in source order (R117), those of `wide` in every lane. A code named twice by one instruction is read
once (R305; log 13). -/
def State.readGo (act : Mask) (pc : DWord) (wide : List Code) :
    List Code → State → Option Word → List (Code × Opd) → State × List (Code × Opd)
  | [], s, _, memo => (s, memo)
  | c :: cs, s, ill, memo =>
    if memo.any fun m => m.1 == c then readGo act pc wide cs s ill memo
    else
      let r := s.readCode (if wide.contains c then fullMask else act) pc ill c
      readGo act pc wide cs r.1 r.2.2 (memo ++ [(c, r.2.1)])

/-- The operands of the codes, in order. -/
def State.readOps (s : State) (act : Mask) (pc : DWord) (wide cs : List Code) : State × List Opd :=
  let r := State.readGo act pc wide cs s none []
  (r.1, cs.map fun c => ((r.2.find? fun m => m.1 == c).map Prod.snd).getD default)

/-- The value a lane of a code would read, or none where the read would be poisoned. -/
def Warp.peek (w : Warp) (c : Code) (l : Nat) : Option Word :=
  let clean (v : Val) : Option Word := if v.psn then none else some v.bits
  let slot (x : Slot) : Option Word := if x.valid.has l then clean (laneOf x.lanes l) else none
  if isCab c then
    if c.toNat < w.n then
      let r := w.cab.getD c.toNat Reg.fresh
      if r.dead then none else clean (laneOf r.lanes l)
    else none
  else if isDrawer c then slot (w.drawer.getD (c.toNat - 0xF0) Slot.fresh)
  else if isLatch c then slot (w.latch.getD (c.toNat - 0xF8) Slot.fresh)
  else if c = 0xFC#8 then some (BitVec.ofNat 32 l)
  else if c = 0xFD#8 then (if w.hints.xiValid then some w.hints.xi else none)
  else some 0#32
/-- The value that a lane of a code of the issuing warp would read: a word that core storage holds with an uncorrectable error reads as poison
(R396, R415). -/
def State.peek (s : State) (c : Code) (l : Nat) : Option Word :=
  if s.svc.wordErrors.contains { loc := .reg s.warp.ref c l } then none else s.warp.peek c l
/-- Peek several codes; none where any would be poisoned (R415). -/
def State.peeks (s : State) (cs : List Code) (l : Nat) : Option (List Word) := cs.mapM fun c => s.peek c l

/-- Whether a write of an earlier instruction to a cabinet register or drawer entry is outstanding (R303). -/
def Warp.outstanding (w : Warp) (c : Code) : Bool :=
  w.pend.any fun p => (p.dsts.contains c || p.swap.any fun x => x.1 == c) && (isCab c || !p.dropped)
/-- Whether an instruction that reads and writes these codes must stall (R53, R303). -/
def Warp.blocked (w : Warp) (reads writes : List Code) : Bool :=
  (reads.any fun c => if isLatch c then (w.latch.getD (c.toNat - 0xF8) Slot.fresh).pend.isSome
    else (isCab c || isDrawer c) && w.outstanding c)
  || writes.any fun c => (isCab c || isDrawer c) && w.outstanding c

/-! ## Writing results -/

/-- The result shape of R47 from the nominal shape. -/
def resultShape (act : Mask) (vs : List Val) (nominal : Shape) : Shape :=
  if act ≠ fullMask then .g
  else if vs.any Val.psn then (if vs.all fun v => v == laneOf vs 0 then .u else .g)
  else nominal

/-- The number of general registers that are not dead (R50). -/
def Warp.generalCount (w : Warp) : Nat := (w.cab.filter fun r => r.shape == .g && !r.dead).length

/-- Replace a cabinet register. The file has 240 registers whatever list stands for it. -/
def Warp.setReg (w : Warp) (n : Nat) (r : Reg) : Warp :=
  { w with cab := (List.range 240).map fun k => if k = n then r else w.cab.getD k Reg.fresh }

/-- Write a result to a cabinet register (R47, R50, R54). The token that the latch receives where the value is lost. -/
def State.writeCab (s : State) (act : Mask) (pc : DWord) (n : Nat) (vs : List Val) (nominal : Shape) : State × Option Word :=
  if s.warp.n ≤ n then
    let t := s.mkToken s.myTag .illegalOperand (s.here act pc)
    (t.1.flagMine [t.2], some t.2)
  else
    let old := s.warp.cab.getD n Reg.fresh
    let sh := resultShape act vs nominal
    let others := s.warp.generalCount - (if old.shape = .g ∧ old.dead = false then 1 else 0)
    if sh = .g ∧ s.warp.gmax < others + 1 then
      let t := s.mkToken s.myTag .regBudget (s.here fullMask pc)
      ((t.1.modFocus fun w => w.setReg n { lanes := splat (Val.poison t.2), shape := .u, dead := false }).flagMine [t.2], some t.2)
    else if old.dead ∧ act ≠ fullMask then
      let t := s.mkToken s.myTag .deadRead (s.here (~~~ act) pc)
      (t.1.modFocus fun w => w.setReg n { lanes := mergeLanes act vs (splat (Val.poison t.2)), shape := sh, dead := false }, none)
    else (s.modFocus fun w => w.setReg n { lanes := mergeLanes act vs old.lanes, shape := sh, dead := false }, none)

/-- Write a drawer entry (R45). -/
def Warp.writeDrawer (w : Warp) (act : Mask) (n : Nat) (vs : List Val) (nominal : Shape) : Warp :=
  let x := w.drawer.getD n Slot.fresh
  let y : Slot := { lanes := mergeLanes act vs x.lanes, shape := resultShape act vs nominal, valid := x.valid ||| act, pend := none }
  { w with drawer := (List.range 8).map fun k => if k = n then y else w.drawer.getD k Slot.fresh }

/-- Write one result word to a destination code; `keep` is false where a deschedule point leaves a drawer entry invalid. -/
def State.writeDst (s : State) (act : Mask) (pc : DWord) (keep : Bool) (c : Code) (vs : List Val) (nominal : Shape) :
    State × Option Word :=
  if isCab c then s.writeCab act pc c.toNat vs nominal
  else if isDrawer c && keep then (s.modFocus fun w => w.writeDrawer act (c.toNat - 0xF0) vs nominal, none)
  else (s, none)

/-- Write the words of a result to its destinations in order. The first token that replaced a lost value (log 14). -/
def State.writeDsts (act : Mask) (pc : DWord) (keep : Bool) :
    List Code → List (List Val) → List Shape → State → Option Word → State × Option Word
  | c :: cs, v :: vs, n :: ns, s, lost =>
    let r := s.writeDst act pc keep c v n
    writeDsts act pc keep cs vs ns r.1 (lost <|> r.2)
  | _, _, _, s, lost => (s, lost)

/-- The unpinned latch positions in increasing number. -/
def Hints.unpinned (h : Hints) : List Nat := (List.range 3).filter fun i => h.pins.getD i 0 = 0

/-- Move the unpinned latch values up one position and put `x` in the lowest unpinned one (R52). -/
def shiftLatch (latch : List Slot) (free : List Nat) (x : Slot) : List Slot :=
  (List.range 3).map fun i =>
    match free.idxOf? i with
    | none => latch.getD i Slot.fresh
    | some 0 => x
    | some (k + 1) => latch.getD (free.getD k 0) Slot.fresh

/-- Give a result instruction its latch position, holding `x` (R52). -/
def Warp.reserve (w : Warp) (x : Slot) : Warp := { w with latch := shiftLatch w.latch w.hints.unpinned x }

/-- The latch value of a result (R53): word 0, or the token in place of a lost result. -/
def latchValue (act : Mask) (words : List (List Val)) (nominal : List Shape) (lost : Option Word) : Slot :=
  let vs := match lost with
    | some t => splat (Val.poison t)
    | none => words.headD []
  { lanes := vs, valid := act, pend := none
    shape := resultShape act vs (if lost.isSome then .u else nominal.headD .g) }

/-- Deliver a result at issue: destinations, then the latch position (R52, R53; log 5). -/
def State.deliver (s : State) (act : Mask) (pc : DWord) (dsts : List Code) (words : List (List Val)) (nominal : List Shape) :
    State :=
  let r := State.writeDsts act pc true dsts words nominal s none
  r.1.modFocus fun w => w.reserve (latchValue act words nominal r.2)

/-- Reserve the latch position of a result that arrives later (R53). -/
def State.awaitResult (s : State) (p : PendRes) : State :=
  s.modFocus fun w =>
    { w.reserve { lanes := splat Val.zero, shape := .g, valid := 0#32, pend := some p.id } with pend := w.pend ++ [p] }

/-- Write the swap half of VAL of a CAS in the lanes of `half`, which received a token there (R215). -/
def State.writeSwap (s : State) (half : Mask) (pc : DWord) (keep : Bool) (swap : List (Code × List Val)) : State :=
  if half = 0#32 then s else swap.foldl (fun s x => (s.writeDst half pc keep x.1 x.2 .g).1) s

/-- Deliver a result that has arrived to the warp in the issuing place (R53, R56); it reaches its latch position `lat` cycles later (R307). -/
def State.arrive (s : State) (p : PendRes) (pc : DWord) (lat : Nat := 0) : State :=
  let s := s.modFocus fun w => { w with pend := w.pend.filter fun q => q.id != p.id }
  let r := State.writeDsts p.mask pc (!p.dropped) p.dsts p.words p.shapes s none
  let fill (x : Slot) : Slot := if x.pend = some p.id then { latchValue p.mask p.words p.shapes r.2 with due := s.ctr s.myDie + lat } else x
  (r.1.writeSwap p.half pc (!p.dropped) p.swap).modFocus fun w => { w with latch := w.latch.map fill }

/-! ## Suppressed words (R58, R78, R79) -/

/-- The latch token of a suppressed word and its flag event: one token, LANES the active lanes (R78). -/
def State.suppressResult (s : State) (act : Mask) (pc : DWord) (k : Suppression) : State :=
  let r : State × Word := match k with
    | .sector t => (s, t)
    | .encoding => s.mkToken s.myTag .illegalEncoding (s.here act pc)
    | .fetch c => s.mkToken s.myTag c (s.here act pc)
    | _ => s.mkToken s.myTag .illegalOperand (s.here act pc)
  (r.1.flagMine [r.2]).modFocus fun w =>
    w.reserve { latchValue act [splat (Val.poison r.2)] [.u] none with due := s.ctr s.myDie + 4 }

/-- What every issue does: the account of R299 and PC + 4. -/
def Warp.advance (w : Warp) (act : Mask) (pc : DWord) : Warp :=
  { w.account with atPoint := false }.setPcs act fun _ => pc + 4#64

/-- A suppressed word that is not a hint (R78). -/
def State.suppressWord (s : State) (act : Mask) (pc : DWord) (k : Suppression) : State :=
  ((s.modFocus fun w => w.advance act pc).suppressResult act pc k).modFocus fun w =>
    { w.afterInstr with yieldCount := w.yieldCount + 1 }

/-- A suppressed hint (R58): it writes the token and flags the region, and takes nothing of the hint state but its own slot. -/
def State.suppressHint (s : State) (act : Mask) (pc : DWord) : State :=
  ((s.modFocus fun w => w.advance act pc).suppressResult act pc .hint).modFocus fun w => { w with hints := w.hints.afterHint }

/-! ## Issue -/

/-- What an instruction names: the codes it reads in source order, the codes of its slots that a LIFE mark concerns (R60), its
destinations, and whether it is a deschedule point (R55). -/
structure Form where
  reads : List Code
  slotA : List Code := []
  slotB : List Code := []
  slotD : List Code := []
  dsts : List Code := []
  /-- Codes that the body reads itself; the instruction waits for them as for its reads. -/
  late : List Code := []
  /-- Codes among `reads` that are read in every lane, whatever the active mask (R169, R176). -/
  wide : List Code := []
  point : Bool := false
  /-- The cycles from its issue until its result reaches the latch (R307). -/
  lat : Nat := 4
  /-- Those cycles are a lower bound (R235). -/
  varies : Bool := false
  deriving DecidableEq, Repr, Inhabited

/-- What an instruction sees at its issue beside its operands. -/
structure Iss where
  act : Mask
  pc : DWord
  env : FpEnv
  /-- SCOPE of the preceding MOD (R63). -/
  scope : Nat
  /-- The counted-release channel (R224). -/
  chan : Nat
  /-- The barrier of ARR. -/
  arr : Option Nat
  /-- The offset of R81. -/
  xoff : DWord
  scale : Option (Code × Code)
  deriving DecidableEq, Repr, Inhabited

/-- The modifiers in force (R63, R81, R106, R224). -/
def Warp.iss (w : Warp) (act : Mask) (pc : DWord) : Iss :=
  let rm0 := w.fpmode.toNat % 8
  { act := act, pc := pc
    env := { rm := (match w.hints.mod with
               | some m => if m.rm = 0 then rm0 else m.rm
               | none => rm0)
             sat := (w.hints.mod.map ModF.sat).getD false
             ftz := w.fpmode.getLsbD 3 }
    scope := (w.hints.mod.map ModF.scope).getD 0
    chan := (match w.hints.mod with
      | some m => if m.chv then m.chn else w.chan.toNat % 16
      | none => w.chan.toNat % 16)
    arr := w.hints.mod.bind fun m => if m.arr then some m.bid else none
    xoff := if w.hints.xiFresh then w.hints.xi.signExtend 64 else 0#64
    scale := w.hints.scale }

/-- Set the dead bits that the LIFE marks of this instruction name (R54, R60). -/
def Warp.markDead (w : Warp) (f : Form) : Warp :=
  let p := w.hints.lifePos
  if 8 ≤ p then w
  else
    let marked := (if w.hints.life.getLsbD (2 * p) then f.slotA else [])
      ++ (if w.hints.life.getLsbD (2 * p + 1) then f.slotB else [])
      ++ (if w.hints.life.getLsbD (16 + p) then f.slotD else [])
    (marked.filter fun c => isCab c && decide (c.toNat < w.n)).foldl
      (fun w c => { w with cab := updAt w.cab c.toNat fun r => { r with dead := true } }) w

/-- A word that core storage holds with an error is corrected, or becomes LINE_POISON, when it is read (R394, R396). -/
def State.settleWords (s : State) (act : Mask) (pc : DWord) (wide cs : List Code) : State :=
  s.svc.wordErrors.foldl (fun s e => match e.loc with
    | .reg w c l =>
      if w = s.warp.ref ∧ c ∈ cs ∧ (act.has l ∨ c ∈ wide) then
        let s := s.foundWord s.myDie e
        if e.soft then s
        else
          let t := s.mkToken s.myTag .linePoison (s.here (1#32 <<< l) pc)
          let put (vs : List Val) := updAt vs l fun _ => Val.poison t.2
          t.1.modFocus fun w =>
            if isCab c then { w with cab := updAt w.cab c.toNat fun r => { r with lanes := put r.lanes, shape := .g } }
            else if isDrawer c then { w with drawer := updAt w.drawer (c.toNat - 0xF0) fun x => { x with lanes := put x.lanes, shape := .g } }
            else { w with latch := updAt w.latch (c.toNat - 0xF8) fun x => { x with lanes := put x.lanes, shape := .g } }
      else s
    | _ => s) s

/-- The latch position that the result of the instruction has just taken is filled at cycle `t` (R53, R307). -/
def Warp.dueAt (w : Warp) (f : Form) (t : Nat) : Warp :=
  if f.dsts.isEmpty then w
  else match w.hints.unpinned.head? with
    | none => w
    | some i => { w with latch := updAt w.latch i fun x => { x with due := max x.due t } }

/-- The latency of a result that is given at issue: a load's, an atomic's or a RELOAD's is free from 20 cycles on (R235, R307; log 55). -/
def Form.latAt (f : Form) (tick : Nat) : Nat := f.lat + if f.varies then Config.latency tick else 0
/-- The form of a load or a RELOAD: at least 20 cycles (R68, R235). -/
def Form.loads (f : Form) : Form := { f with lat := 20, varies := true }
/-- The form of an atomic that gives a result, or of a JOINC: at least 44 cycles (R235, R336). -/
def Form.atomics (f : Form) : Form := { f with lat := 44, varies := true }

/-- Issue an instruction that is not a hint. `refuse`: a check of its entry suppresses it. `stall`: a condition of its entry
does not hold yet, and the warp does not issue. `body` is its effect, after its sources are read, the marks of LIFE have acted
and, at a deschedule point, R56 has. -/
def State.issue (s : State) (i : Instr) (f : Form) (refuse stall : Bool) (body : State → Iss → List Opd → State) : State :=
  match s.warp.group with
  | none => s
  | some (act, pc) =>
    if !s.warp.mayIssue then s
    else if !i.wf then s.suppressWord act pc .operand
    else if s.warp.blocked (f.reads ++ f.late) f.dsts then s
    else if refuse then s.suppressWord act pc .operand
    else if stall then s
    else
      let iss := s.warp.iss act pc
      let r := (s.settleWords act pc f.wide f.reads).readOps act pc f.wide f.reads
      let s1 := r.1.modFocus fun w =>
        let w := (w.markDead f).advance act pc
        if f.point then w.deschedule else { w with yieldCount := w.yieldCount + 1 }
      (body s1 iss r.2).modFocus fun w => (w.dueAt f (s.ctr s.myDie + f.latAt s.tick)).afterInstr

/-- Issue a hint (R58): `f` is its effect on the hint state. -/
def State.issueHint (s : State) (i : Instr) (f : Hints → Hints) : State :=
  match s.warp.group with
  | none => s
  | some (act, pc) =>
    if !s.warp.mayIssue then s
    else if !i.wf then s.suppressHint act pc
    else s.modFocus fun w => { w.advance act pc with hints := f w.hints.afterHint }

/-! ## Lane-wise results -/

/-- The first poisoned value of a list of sources (R117). -/
def firstPoison (vs : List Val) : Option Word := (vs.find? Val.psn).map Val.bits

/-- One lane's sources. -/
def laneSrcs (os : List Opd) (l : Nat) : List Val := os.map fun o => laneOf o.lanes l

/-- Apply a function of one lane's clean source words in each active lane. A poisoned source gives its token and no flag
(R112, R117). The words of the result, lane by lane, and the flags. -/
def laneWise (act : Mask) (os : List Opd) (nwords : Nat) (f : Nat → List Word → List Word × Flags) :
    List (List Val) × Flags :=
  let rs : List (List Val × Flags) := lanes32 fun l =>
    if act.has l then
      match firstPoison (laneSrcs os l) with
      | some t => (List.replicate nwords (Val.poison t), 0#6)
      | none =>
        let r := f l ((laneSrcs os l).map Val.bits)
        (r.1.map Val.clean, r.2)
    else (List.replicate nwords Val.zero, 0#6)
  ((List.range nwords).map fun w => rs.map fun r => r.1.getD w Val.zero, rs.foldl (fun a r => a ||| r.2) 0#6)

/-- OR flags into FPSTAT (R112). -/
def Warp.raiseFlags (w : Warp) (f : Flags) : Warp := { w with fpstat := orFlags w.fpstat f }

/-- Class "every other instruction" of R47. -/
def nomOther (os : List Opd) : Shape := if os.all fun o => o.shape == .u then .u else .g
/-- Class "additive" of R47. -/
def nomAdd (os : List Opd) : Shape :=
  if os.any fun o => o.shape == .g then .g else if os.all fun o => o.shape == .u then .u else .a

/-- A lane-wise result instruction: read `f.reads`, apply `fn` in each active lane, write `f.dsts` with the nominal shapes of
`nom`, OR the flags. -/
def State.alu (s : State) (i : Instr) (f : Form) (nom : List Opd → Shape)
    (fn : FpEnv → Nat → List Word → List Word × Flags) : State :=
  s.issue i f false false fun s iss os =>
    let r := laneWise iss.act os f.dsts.length (fn iss.env)
    (s.deliver iss.act iss.pc f.dsts r.1 (List.replicate f.dsts.length (nom os))).modFocus fun w => w.raiseFlags r.2

/-- A lane-wise result instruction whose function sees the poison of its sources. -/
def State.aluVals (s : State) (i : Instr) (f : Form) (nom : List Opd → Shape) (fn : Nat → List Val → Val) : State :=
  s.issue i f false false fun s iss os =>
    s.deliver iss.act iss.pc f.dsts [lanes32 fun l => fn l (laneSrcs os l)] [nom os]

/-- Format T with one result word and two sources. -/
def formT (d a b : Code) : Form := { reads := [a, b], slotA := [a], slotB := [b], dsts := [d] }
/-- One source and one result word. -/
def formU (d a : Code) : Form := { reads := [a], slotA := [a], dsts := [d] }

/-- Across lanes, a result takes 8 cycles (R307). -/
def Form.slow (f : Form) : Form := { f with lat := 8 }
/-- In the special-function unit, a result takes 10 cycles (R307). -/
def Form.slower (f : Form) : Form := { f with lat := 10 }

/-- A lane-wise instruction of two sources that sets no flag. -/
def State.alu2 (s : State) (i : Instr) (d a b : Code) (nom : List Opd → Shape) (fn : Word → Word → Word) : State :=
  s.alu i (formT d a b) nom fun _ _ ws => ([fn (ws.getD 0 0#32) (ws.getD 1 0#32)], 0#6)
/-- A lane-wise instruction of one source that sets no flag. -/
def State.alu1 (s : State) (i : Instr) (d a : Code) (nom : List Opd → Shape) (fn : Word → Word) : State :=
  s.alu i (formU d a) nom fun _ _ ws => ([fn (ws.getD 0 0#32)], 0#6)

end Sys2Proof.Machine
end

