-- ==== Sys2Proof/Machine/Access.lean ====
section
/-!
DEFINITION. The accesses of loads, stores and atomics: where a lane's address leads (R189 to R192, R202, R203, R213, R214), the
tokens of the lanes that meet a fault (R215), the store queues (R236, R260) and the writes that leave a core.
-/
namespace Sys2Proof.Machine
open Sys2Proof

/-! ## Places (R189 to R191) -/

/-- What a place and an offset name. -/
inductive Target where
  /-- A space of the own node. -/
  | own (space : Nat) (off : DWord)
  /-- SPACE 0 of another node. -/
  | node (n : Nat) (off : DWord)
  | reserved
  deriving DecidableEq, Repr, Inhabited

/-- Resolve a node code and a space (R189, R190). -/
def resolveNode (own node space : Nat) (off : DWord) : Target :=
  if 3 ≤ space then .reserved
  else if node = 0x1FFF ∨ node = own then .own space off
  else if 4608 ≤ node then .reserved
  else if space ≠ 0 then .reserved
  else .node node off
/-- Resolve a place; NODE 0x1FFE takes the node from the offset, once (R191). -/
def resolvePlace (own : Nat) (place : BitVec 16) (off : DWord) : Target :=
  let node := place.toNat / 8
  let space := place.toNat % 8
  if node = 0x1FFE then
    let taken := off.toNat / 2 ^ 51
    let off := BitVec.ofNat 64 (off.toNat % 2 ^ 51)
    if taken = 0x1FFE then .reserved else resolveNode own taken space off
  else resolveNode own node space off

/-- Where one lane's access leads. -/
inductive Way where
  /-- The address is poisoned (R215, first row). -/
  | bad (t : Word)
  /-- A row-two outcome, with the space and the offset that was translated. -/
  | fault (c : Cause) (space : Nat) (xoff : DWord)
  /-- Device memory: physical byte addresses and lengths, in the order of the access's bytes. -/
  | mem (space : Nat) (ps : List (Nat × Nat))
  /-- Host memory on a port. -/
  | host (port hpa : Nat)
  /-- SPACE 0 of another node. -/
  | remote (node : Nat) (off : DWord)
  deriving DecidableEq, Repr, Inhabited

/-- The area byte of word index `j` in a lane (R202). -/
def areaByte (j lane : Nat) : Nat := (j * 32 + lane) * 4
/-- The pieces of a private access of `size` bytes at private offset `b` in a lane: area bytes and lengths (R202). -/
def privPieces (b size lane : Nat) : List (Nat × Nat) :=
  if size < 4 then [(areaByte (b / 4) lane + b % 4, size)]
  else (List.range (size / 4)).map fun j => (areaByte (b / 4 + j) lane, 4)
/-- The port that carries a context's SPACE 2 accesses (R193, R353). -/
def State.portOf (s : State) (tag : Nat) : Nat := ((s.svc.funcs.getD (s.ctx tag).func default).port).getD 0

/-- Translate pieces of an area that starts at `base` of SPACE 1; the first fault decides. -/
def State.mapPieces (core : Option Nat) (die tag base : Nat) (write : Bool) :
    List (Nat × Nat) → State → List (Nat × Nat) → State × Way
  | [], s, acc => (s, .mem 1 acc.reverse)
  | (a, n) :: ps, s, acc =>
    let off := BitVec.ofNat 64 (base + a)
    let r := s.lookup core die tag 1 off write
    match r.2 with
    | .fault c => (r.1, .fault c 1 off)
    | .leaf t => mapPieces core die tag base write ps r.1 ((t.frame + off.toNat % 65536, n) :: acc)

/-- Where the access of one lane of the issuing warp leads: reserved place, alignment, stack limit, translation, in that order
(R190, R203, R214, R215; log 15). -/
def State.wayOf (s : State) (place : BitVec 16) (off : DWord) (size align lane : Nat) (write : Bool) : State × Way :=
  let tag := s.myTag
  let core := s.coreOf s.warp.ref.wg
  let die := s.myDie
  match resolvePlace s.fabric.node place off with
  | .reserved => (s, .fault .bounds 0 off)
  | t =>
    if off.toNat % align ≠ 0 then (s, .fault .align 0 off)
    else match t with
      | .own 1 off =>
        if s.warp.privw < off.toNat / 4 + (size + 3) / 4 then (s, .fault .stackLimit 1 off)
        else State.mapPieces (some core) die tag s.warp.privBase write (privPieces off.toNat size lane) s []
      | .own sp off =>
        let r := s.lookup (some core) die tag sp off write
        match r.2 with
        | .fault c => (r.1, .fault c sp off)
        | .leaf t =>
          let pa := t.frame + off.toNat % 65536
          (r.1, if sp = 2 then .host (s.portOf tag) pa else .mem 0 [(pa, size)])
      | .node n off => (s, .remote n off)
      | .reserved => (s, .fault .bounds 0 off)

/-- One lane of an access, with the place and offset it was formed with. -/
structure LaneAcc where
  lane : Nat
  place : BitVec 16
  off : DWord
  way : Way
  deriving DecidableEq, Repr, Inhabited

/-- The lanes of a mask, in increasing order. -/
def lanesOf (m : Mask) : List Nat := (List.range 32).filter fun l => m.has l

/-- Classify the address of each active lane, in lane order. `addr` is the address a lane forms, or its token. -/
def State.ways (size align : Nat) (write : Bool) (addr : Nat → BitVec 16 × (Word ⊕ DWord)) :
    List Nat → State → List LaneAcc → State × List LaneAcc
  | [], s, acc => (s, acc)
  | l :: ls, s, acc =>
    match (addr l).2 with
    | .inl t => ways size align write addr ls s (acc ++ [{ lane := l, place := (addr l).1, off := 0#64, way := .bad t }])
    | .inr off =>
      let r := s.wayOf (addr l).1 off size align l write
      ways size align write addr ls r.1 (acc ++ [{ lane := l, place := (addr l).1, off := off, way := r.2 }])

/-- The address of a lane of LD, ST, ATOM, ATOMN, STC and WAITV (R213). -/
def laneAddr (place : BitVec 16) (lo hi : Opd) (xoff : DWord) (l : Nat) : BitVec 16 × (Word ⊕ DWord) :=
  (place, match firstPoison [laneOf lo.lanes l, laneOf hi.lanes l] with
    | some t => .inl t
    | none => .inr (joinWords (laneOf lo.lanes l).bits (laneOf hi.lanes l).bits + xoff))

/-! ## Tokens of an access -/

/-- The mask of a list of lanes. -/
def maskOfLanes (ls : List Nat) : Mask := maskOf fun l => ls.contains l

/-- Whether a send channel is owned by a context (R279, R280). -/
def State.ownsSend (s : State) (tag node chan : Nat) : Bool :=
  s.fabric.send.any fun c => c.node == node && c.chan == chan && c.tag == tag

/-- The faults of an access: row two of R215, and lanes for another node whose send channel the context does not own (R280), where
the lane's operands are clean. -/
def State.laneFaults (s : State) (chan : Nat) (clean : Nat → Bool) (as : List LaneAcc) : List LaneFault :=
  as.filterMap fun a => match a.way with
    | .fault c sp x => some { lane := a.lane, cause := c, place := a.place, off := a.off, space := sp, xoff := x }
    | .remote n _ =>
      if s.ownsSend s.myTag n chan || !clean a.lane then none
      else some { lane := a.lane, cause := .protection, place := a.place, off := a.off, space := 0, xoff := a.off }
    | _ => none

/-- One token for the lanes that met a cause: LANES all of them, ADDR that of the lowest; each missing page queues its own
request (R195, R215, R376). -/
def State.tokenFor (s : State) (pc : DWord) (fs : List LaneFault) (c : Cause) : State × Word :=
  let mine := fs.filter fun f => f.cause == c
  let o := { s.here (maskOfLanes (mine.map LaneFault.lane)) pc with addr := mine.head?.map fun f => (f.off, f.place) }
  if c = .pageMiss then
    let r := mine.foldl (fun (r : State × Option Nat) f =>
      let q := r.1.svcReq s.myTag f.space f.xoff { o with addr := some (f.off, f.place) }
      (q.1, r.2 <|> some q.2)) (s, none)
    r.1.mkToken s.myTag c { o with aux := BitVec.ofNat 32 (r.2.getD 0) }
  else s.mkToken s.myTag c o

/-- The tokens of an access: one for each cause, in order of the lowest lane that meets it. -/
def State.tokensFor (s : State) (pc : DWord) (fs : List LaneFault) : State × List (Cause × Word) :=
  (fs.map LaneFault.cause).foldl (fun (r : State × List (Cause × Word)) c =>
    if r.2.any fun e => e.1 == c then r
    else
      let t := r.1.tokenFor pc fs c
      (t.1, r.2 ++ [(c, t.2)])) (s, [])
/-- The token of a cause. -/
def tokenIn (ts : List (Cause × Word)) (c : Cause) : Word := ((ts.find? fun e => e.1 == c).map Prod.snd).getD 0#32

/-! ## Latency (R235) -/

/-- The least cycles of a load that a piece of device memory serves: its registered stash line, the memory controller for MT 2, else a line of L1, or
for an atomic of the L2 of its home (log 55). -/
def State.pieceLeast (s : State) (atomic : Bool) (mt pa : Nat) : Nat :=
  let core := s.coreOf s.warp.ref.wg
  let own := s.myDie
  match s.locate pa with
  | some (wg, _) =>
    let c := s.coreOf wg
    if c = core then 24 else if dieOf c = own then 110 else 190
  | none =>
    let far (n : Nat) : Nat := if homeDie pa = own then n else n + 80
    if mt = 2 then far 420 else if atomic then far 110 else 20
/-- The least cycles from the issue of a load or atomic to its result: those of the slowest of its lanes, an atomic's 20 more (R235). -/
def State.leastOf (s : State) (atomic : Bool) (mt : LaneAcc → Nat → Nat) (as : List LaneAcc) : Nat :=
  let more := if atomic then 20 else 0
  as.foldl (fun m a => match a.way with
    | .mem _ ps => ps.foldl (fun m p => max m (s.pieceLeast atomic (mt a p.1) p.1 + more)) m
    | .host _ _ => max m (190 + more)
    | _ => m) 20

/-! ## Scope and order (R221, R222, R229, R236) -/

/-- The default scope of a lane's address (R221). -/
def Way.scope : Way → Nat
  | .mem sp _ => if sp = 1 then 1 else 5
  | .host _ _ => 7
  | .remote _ _ => 6
  | .bad _ | .fault _ _ _ => 0
/-- The scope in force: SCOPE of the MOD, or with SCOPE 0 the widest default scope of the lanes that are performed, else
device (R221, R265). -/
def scopeOf (scope : Nat) (as : List LaneAcc) : Nat :=
  if scope ≠ 0 then scope
  else
    let m := as.foldl (fun m a => max m a.way.scope) 0
    if m = 0 then 5 else m

/-- An acquire at domain or system scope invalidates the peer lines of the issuing die (R201). -/
def State.acquire (s : State) (die scope : Nat) : State :=
  if 6 ≤ scope then s.modMem fun d => { d with peers := d.peers.filter fun p => p.die != die } else s

/-- Every write of the warp has left its core's store queue. -/
def State.drained (s : State) (w : WarpRef) : Bool := !(s.coreAt (s.coreOf w.wg)).storeQ.any fun e => e.warp == w
/-- The warp waits for a load that is not performed yet, or for the answer to an access of its own to another node or the host. What an asynchronous engine has asked for is no access
of the warp (R222, R229). -/
def State.asking (s : State) (w : WarpRef) : Bool :=
  (s.fabric.requests.any fun r => r.warp == w && r.copy.isNone && r.queue.isNone) || ((s.getWarp w).map fun x => !x.late.isEmpty).getD false
/-- Every earlier access of the warp is performed, for a release (R222, R268): its stores have left, its loads and atomics have
their answers, and where SPACE 2 writes count they have been observed. -/
def State.released (s : State) (w : WarpRef) (system : Bool) : Bool :=
  s.drained w && !s.asking w && ((s.getWarp w).map fun x => x.held.isNone).getD true && !(system && s.svc.observing.any fun o => o.2 == w)
/-- A memory instruction of the warp must wait for an acquire, or for an ordered access or FENCE, that has not completed (R236). -/
def Warp.gated (w : Warp) : Bool := w.pend.any PendRes.acq || w.held.isSome
/-- One that keeps no order of its own with loads that are not performed yet waits for them as well. -/
def Warp.acquiring (w : Warp) : Bool := w.gated || !w.late.isEmpty

/-- A sequentially consistent fence of a scope, its thread's writes being in the die's view (R229, R265): at domain or system scope it invalidates
the peer lines of the die. -/
def State.seqFence (s : State) (scope : Nat) : State := (if 5 ≤ scope then s.modMem DevMem.sync else s).acquire s.myDie scope

/-! ## Scopes (R258, R259) -/

/-- Whether the threads of warp `u` are members of scope `sc` of the threads of warp `t` (R258). Every thread of the model runs on the device,
so all are members of device scope and of every wider one. -/
def State.inScope (s : State) (t u : WarpRef) (sc : Nat) : Bool :=
  let g := (s.wgOf t.wg).getD default
  let h := (s.wgOf u.wg).getD default
  match sc with
  | 1 => t == u
  | 2 => t.wg == u.wg
  | 3 => g.launch == h.launch && g.cl == h.cl && g.replica == h.replica
  | 4 => dieOf g.core == dieOf h.core
  | _ => true
/-- The scope of an ordered access to a place: the given one of a MOD, or the default (R221). -/
def State.scopeFor (s : State) (sc : Nat) (place : BitVec 16) : Nat :=
  if sc ≠ 0 then sc
  else match place.toNat % 8 with
    | 1 => 1
    | 2 => 7
    | _ => if place.toNat / 8 = 0x1FFF ∨ place.toNat / 8 = s.fabric.node then 5 else 6
/-- That scope with the pending MOD. -/
def State.scopeAt (s : State) (place : BitVec 16) : Nat := s.scopeFor ((s.warp.hints.mod.map ModF.scope).getD 0) place
/-- A release of a scope by the issuing warp must still wait (R222, R259, R265). At device scope and wider every earlier access is performed
first. A narrower release lets earlier stores leave after it, since only its members may not see that: `State.ordered` (log 71). -/
def State.mustWait (s : State) (scope : Nat) : Bool :=
  if 5 ≤ scope then !s.released s.warp.ref (scope == 7) else s.asking s.warp.ref
/-- An ordered access must still wait; before a sequentially consistent one, or a FENCE.SEQ, of any scope every earlier write of the thread has
entered its die's view (R265). -/
def State.orderWaits (s : State) (seq : Bool) (scope : Nat) : Bool := s.mustWait scope || (seq && !s.drained s.warp.ref)
/-- The issuing warp's stores that are still in the queue are ordered before what follows, for the members of a scope (R259). -/
def State.markRelease (s : State) (scope : Nat) : State :=
  if 5 ≤ scope || decide (scope = 0) then s
  else
    let w := s.warp.ref
    s.modCore (s.coreOf w.wg) fun c => { c with storeQ := c.storeQ.map fun e => if e.warp = w then { e with upto := max e.upto scope } else e }

/-! ## Store queues (R236, R260) -/

/-- The sector or line that a store entry writes. -/
def StoreAct.place : StoreAct → Nat × Nat
  | .mem w => (0, w.addr)
  | .remote n p => (1 + n, p.off.toNat / 32 * 32)
  | .host p a _ _ => (10000 + p, a / 32 * 32)
/-- Whether entry `k` may leave: no earlier entry of its warp is for the same sector (R222). -/
def mayDrain (q : List StoreEntry) (k : Nat) : Bool :=
  match q[k]? with
  | none => false
  | some e => (q.take k).all fun f => f.warp != e.warp || f.act.place != e.act.place

/-- A store or atomic from this device to a line of another node invalidates the device's own peer copies of it (R201). -/
def State.dropPeers (s : State) (node : Nat) (off : DWord) : State :=
  let keep (p : PeerLine) : Bool := !(p.node == node && p.off == off.toNat / 128 * 128)
  s.modMem fun d => { d with peers := d.peers.filter keep }
/-- A counted write leaves the device: its own peer copies of the lines go (R201). -/
def State.sendWrite (s : State) (node : Nat) (p : WritePacket) : State :=
  (p.sectors.foldl (fun s w => s.dropPeers node (BitVec.ofNat 64 w.addr)) (s.dropPeers node p.off)).send (.write node p)

/-- A write leaves the core (R236, R260, R268, R281): it enters the die's view, the fabric or the host port. -/
def State.perform (s : State) (die : Nat) (e : StoreEntry) : State :=
  match e.act with
  | .mem w =>
    let r := s.physPut die e.tag (Origin.device die) false w
    match r.2 with
    | some t => r.1.flagTokens e.tag e.warp [t]
    | none => r.1
  | .remote n p => s.sendWrite n p
  | .host port a data psn =>
    let n := s.nextId
    let s := s.send (.hostWrite (s.ctx e.tag).func port a data psn)
    if (s.svc.ports.getD port default).cxl then s.modSvc fun v => { v with observing := v.observing ++ [(n, e.warp)] } else s

/-- Entry `k` of a core's store queue leaves. -/
def State.drainEntry (s : State) (core k : Nat) : State :=
  match (s.coreAt core).storeQ[k]? with
  | none => s
  | some e => (s.modCore core fun c => { c with storeQ := c.storeQ.eraseIdx k }).perform (dieOf core) e

/-- Every entry of a warp for which `f` holds leaves, oldest first. -/
def State.drainWhere (s : State) (core : Nat) (f : StoreEntry → Bool) : State :=
  let q := (s.coreAt core).storeQ
  (q.filter f).foldl (fun s e => s.perform (dieOf core) e)
    (s.modCore core fun c => { c with storeQ := q.filter fun e => !f e })

/-- The lanes that wrote an entry. -/
def StoreEntry.writers (e : StoreEntry) : Mask := e.lanes.foldl (fun m l => m ||| l) 0#32
/-- Before the threads of lanes `act` of warp `u` read memory, the stores of their die that a release of a scope they are members of has ordered
leave their queues (R258, R259): a member sees no later write of the releasing thread without them. A thread that itself wrote an entry has no
need of that. -/
def State.ordered (s : State) (u : WarpRef) (act : Mask := fullMask) : State :=
  if s.cores.all fun c => c.storeQ.all fun e => e.upto == 0 then s
  else
    let die := dieOf (s.coreOf u.wg)
    let must (s : State) (e : StoreEntry) : Bool :=
      e.upto != 0 && s.inScope e.warp u e.upto && (e.warp != u || act &&& ~~~ e.writers != 0#32)
    (List.range 64).foldl (fun s k => s.drainWhere (64 * die + k) (must s)) s

/-- The issuing warp's own writes to a sector leave before an atomic or an engine of the warp reads the sector (R222, R260; log 6). -/
def State.drainOwn (s : State) (pa : Nat) : State :=
  let w := s.warp.ref
  let hit (e : StoreEntry) : Bool := e.warp == w && e.act.place == (0, pa / 32 * 32)
  let core := s.coreOf w.wg
  if (s.coreAt core).storeQ.any hit then s.drainWhere core hit else s
/-- The lanes of an access that read or write a byte of device memory. -/
def lanesAt (as : List LaneAcc) (pa : Nat) : Mask :=
  maskOfLanes ((as.filter fun a => match a.way with
    | .mem _ ps => ps.any fun p => decide (p.1 ≤ pa) && decide (pa < p.1 + p.2)
    | _ => false).map LaneAcc.lane)
/-- A load by several lanes must see the issuing warp's queued write to a sector, so that the write leaves first: lanes of one instruction read a
location at one point (R216), and a thread reads no value older than its own store (R260). A write of which one lane alone reads a byte, and that
lane is the one whose value the byte holds, is forwarded to it. One that no lane made, a COMMIT's (R383) or a SPILL's (R68), leaves (log 6). -/
def State.sharedRead (s : State) (as : List LaneAcc) (sec : Nat) : Bool :=
  (s.coreAt (s.coreOf s.warp.ref.wg)).storeQ.any fun e => e.warp == s.warp.ref && e.act.place == (0, sec) && (e.lanes.isEmpty
    || (List.range 32).any fun i =>
      let wr := e.lanes.getD i 0#32
      let rd := lanesAt as (sec + i)
      wr &&& rd != 0#32 && !(rd == 1#32 <<< rd.lowest && wr >>> rd.lowest == 1#32))
/-- The issuing warp's SPACE 2 writes leave before it reads host memory (R269; log 6). -/
def State.drainHost (s : State) : State :=
  let w := s.warp.ref
  s.drainWhere (s.coreOf w.wg) fun e => e.warp == w && decide (10000 ≤ e.act.place.1)

/-- The byte that the newest store of a lane of warp `w` in a queue gives a byte of device memory (R260). -/
def forwardByte (q : List StoreEntry) (w : WarpRef) (lane pa : Nat) : Option Byte :=
  q.reverse.findSome? fun e => match e.act with
    | .mem x =>
      if e.warp == w && x.addr == pa / 32 * 32 && x.mask.getLsbD (pa % 32) && (e.lanes.getD (pa % 32) 0#32).has lane then
        some (x.data.getD (pa % 32) 0#8)
      else none
    | _ => none

/-- Put the actions of one instruction into the store queue of the issuing warp's core; `by'` gives the lanes that wrote each byte of a
sector. -/
def State.enqueue (s : State) (acts : List StoreAct) (by' : StoreAct → List Mask := fun _ => []) : State :=
  let core := s.coreOf s.warp.ref.wg
  let grp := s.nextId
  let es := (List.range acts.length).filterMap fun i => (acts[i]?).map fun a =>
    ({ id := grp + i, grp := grp, warp := s.warp.ref, quad := s.warp.quad, tag := s.myTag, act := a, lanes := by' a } : StoreEntry)
  { s.modCore core fun c => { c with storeQ := c.storeQ ++ es } with nextId := grp + acts.length }

/-- The entries of 128-byte lines that the warp's quadrant holds in its store queue, whatever workgroup they are of. -/
def State.storeLoad (s : State) (w : Warp) : Nat :=
  let q := (s.coreAt (s.coreOf w.ref.wg)).storeQ.filter fun e => e.quad == w.quad
  (q.foldl (fun (ks : List (Nat × Nat × Nat)) e =>
    let k := (e.grp, e.act.place.1, e.act.place.2 / 128)
    if k ∈ ks then ks else k :: ks) []).length
/-- The issuing warp has a direction 4 copy whose write count has not been added to its channel (R247). -/
def State.countingCopy (s : State) : Bool :=
  s.copies.any fun c => c.warp == s.warp.ref && c.dir == 4 && c.record.isNone && !c.finished
/-- A store that would write `lines` lines must stall: it finds too few free entries (R236), or a copy's indices are still to
be assigned (R247; log 20). One that no queue could hold waits for an empty queue. -/
def State.storeFull (s : State) (lines : Nat) : Bool :=
  let used := s.storeLoad s.warp
  s.countingCopy || (used != 0 && decide (64 < used + lines))

/-- The lines that the clean addresses of the active lanes touch, for R236: by offset, or by word in SPACE 1. -/
def linesOf (space size : Nat) (offs : List DWord) : Nat :=
  (offs.foldl (fun (ks : List Nat) o =>
    (List.range (if space = 1 then (size + 3) / 4 else 1)).foldl (fun ks j =>
      let k := if space = 1 then o.toNat / 4 + j else o.toNat / 128
      if k ∈ ks then ks else k :: ks) ks) []).length

/-! ## Gathering the bytes that lanes write -/

/-- Merge bytes at a byte address into a list of sector writes; later bytes win (R216). -/
def mergeBytes (ws : List SectorWrite) (a : Nat) (bs : List Byte) : List SectorWrite :=
  let n := sectorBytes a bs
  match ws.find? fun w => w.addr == n.addr with
  | none => ws ++ [n]
  | some _ => ws.map fun w =>
      if w.addr = n.addr then
        { w with mask := w.mask ||| n.mask
                 data := (List.range 32).map fun i => if n.mask.getLsbD i then n.data.getD i 0#8 else w.data.getD i 0#8 }
      else w

/-- The bytes of a piece list, cut as the pieces are. -/
def cutPieces : List (Nat × Nat) → List Byte → List (Nat × List Byte)
  | [], _ => []
  | (a, n) :: ps, bs => (a, bs.take n) :: cutPieces ps (bs.drop n)

/-- The counter of a channel among those that no context owns (R278). -/
def idleCount (l : List (Nat × Nat × Word)) (node chan : Nat) : Word :=
  ((l.find? fun e => e.1 == node && e.2.1 == chan).map fun e => e.2.2).getD 0#32
/-- Set it; a counter of 0 is not listed. -/
def setIdle (l : List (Nat × Nat × Word)) (node chan : Nat) (n : Word) : List (Nat × Nat × Word) :=
  let rest := l.filter fun e => !(e.1 == node && e.2.1 == chan)
  if n = 0#32 then rest else (node, chan, n) :: rest
/-- The next index of a send channel, and the channel counted (R278, R281). -/
def State.takeIndex (s : State) (node chan : Nat) : State × Word :=
  match s.fabric.send.find? fun c => c.node == node && c.chan == chan with
  | some c =>
    let n := c.count + 1
    (s.modFab fun f => { f with send := f.send.map fun c =>
        if c.node = node ∧ c.chan = chan then { c with count := n } else c }, n)
  | none =>
    let n := idleCount s.fabric.sendIdle node chan + 1
    (s.modFab fun f => { f with sendIdle := setIdle f.sendIdle node chan n }, n)

/-! ## Withheld lanes (R215, R379, R380) -/

/-- A rack entry with nothing in it. -/
def RackEntry.blank (tag : Nat) (w : WarpRef) (pc : DWord) : RackEntry :=
  { tag := tag, warp := w, seq := 0, off := none, place := 0#16, poisoned := true, atom := false, held := false, chan := 0,
    ord := 0, scope := 0, mask := 0#32, pmask := 0#8, token := 0#32, data := List.replicate 32 0#8, pc := pc }

/-- Overlay bytes at byte `k` of a sector on an entry: with a token the words they touch become poisoned words that hold it;
clean bytes that cover a word make it clean (log 16). -/
def RackEntry.overlay (e : RackEntry) (k : Nat) (bs : List Byte) (tok : Option Word) : RackEntry :=
  let touched (w : Nat) : Bool := decide (k < 4 * w + 4) && decide (4 * w < k + bs.length)
  let mask := e.mask ||| BitVec.ofNat 32 ((2 ^ bs.length - 1) * 2 ^ k)
  match tok with
  | some t =>
    let tb := natLE 4 t.toNat
    { e with
      mask := mask
      pmask := (List.range 8).foldl (fun m w => if touched w then m ||| (1#8 <<< w) else m) e.pmask
      data := (List.range 32).map fun i => if touched (i / 4) then tb.getD (i % 4) 0#8 else e.data.getD i 0#8 }
  | none =>
    { e with
      mask := mask
      pmask := (List.range 8).foldl (fun m w =>
        if decide (k ≤ 4 * w) && decide (4 * w + 4 ≤ k + bs.length) then m &&& ~~~(1#8 <<< w) else m) e.pmask
      data := (List.range 32).map fun i =>
        if decide (k ≤ i) && decide (i < k + bs.length) && !e.pmask.getLsbD (i / 4) then bs.getD (i - k) 0#8
        else if decide (k ≤ i / 4 * 4) && decide (i / 4 * 4 + 4 ≤ k + bs.length) then bs.getD (i - k) 0#8
        else e.data.getD i 0#8 }

/-- The token of the lowest poisoned word of an entry, and whether it has one (R380). -/
def RackEntry.seal (e : RackEntry) : RackEntry :=
  match (List.range 8).find? fun w => e.pmask.getLsbD w with
  | some w => { e with poisoned := true, token := BitVec.ofNat 32 (leNat ((e.data.drop (4 * w)).take 4)) }
  | none => { e with poisoned := e.off.isNone }

/-- One lane of a withheld or held write: its rack pieces, each a sector offset, the byte in it, bytes and their token. -/
structure HeldLane where
  lane : Nat
  /-- None: withheld with no address, carrying the token. -/
  pieces : Option (List (DWord × Nat × List Byte × Option Word))
  token : Word
  deriving DecidableEq, Repr, Inhabited

/-- The rack writes of the lanes of one instruction (R379): `proto` gives the fields they share. -/
def rackWrites (proto : RackEntry) (ls : List HeldLane) : List Withheld :=
  let step (ws : List Withheld) (h : HeldLane) : List Withheld :=
    match h.pieces with
    | none =>
      match ws.find? fun w => w.entry.off == none && w.entry.token == h.token with
      | some _ => ws.map fun w => if w.entry.off = none ∧ w.entry.token = h.token
          then { w with lanes := w.lanes ||| (1#32 <<< h.lane) } else w
      | none => ws ++ [{ entry := { proto with off := none, token := h.token, held := false }, lanes := 1#32 <<< h.lane }]
    | some ps => ps.foldl (fun ws p =>
        let new (e : RackEntry) : RackEntry := (e.overlay p.2.1 p.2.2.1 p.2.2.2).seal
        match ws.find? fun w => w.entry.off == some p.1 with
        | some _ => ws.map fun w => if w.entry.off = some p.1
            then { entry := new w.entry, lanes := w.lanes ||| (1#32 <<< h.lane) } else w
        | none => ws ++ [{ entry := new { proto with off := some p.1, poisoned := false }, lanes := 1#32 <<< h.lane }]) ws
  ls.foldl step []

/-- The rack pieces of a lane's access of whole bytes: sector offsets in its space, or in the private area (R380). `wtok` gives
the token of byte `i`, if its word is poisoned. -/
def rackPieces (own : Nat) (a : LaneAcc) (size : Nat) (bs : List Byte) (wtok : Nat → Option Word) :
    List (DWord × Nat × List Byte × Option Word) :=
  match resolvePlace own a.place a.off with
  | .own 1 off =>
    let ps := privPieces off.toNat size a.lane
    (List.range ps.length).filterMap fun i => (ps[i]?).map fun p =>
      (BitVec.ofNat 64 (p.1 / 32 * 32), p.1 % 32, (bs.drop (4 * i)).take p.2, wtok (4 * i))
  | _ =>
    let sec := BitVec.ofNat 64 (a.off.toNat / 32 * 32)
    if size < 4 then [(sec, a.off.toNat % 32, bs, wtok 0)]
    else (List.range (size / 4)).map fun i => (sec, a.off.toNat % 32 + 4 * i, (bs.drop (4 * i)).take 4, wtok (4 * i))

end Sys2Proof.Machine
end

