-- ==== Sys2Proof/Machine/LoadStore.lean ====
section
/-!
DEFINITION. LD, ST, LDP and STP (R217 to R220) and the shared operations of loads and stores.
-/
namespace Sys2Proof.Machine
open Sys2Proof

/-- The node code under which a request to the host on a port is held (model). -/
def hostNode (port : Nat) : Nat := 10000 + port

/-! ## Loads -/

/-- The sectors that the device-memory lanes of an access touch, with the lanes that touch each. -/
def sectorsOf (as : List LaneAcc) : List (Nat × Mask) :=
  as.foldl (fun l a => match a.way with
    | .mem _ ps => ps.foldl (fun l p =>
        let k := p.1 / 32 * 32
        match l.find? fun e => e.1 == k with
        | some _ => l.map fun e => if e.1 = k then (k, e.2 ||| (1#32 <<< a.lane)) else e
        | none => l ++ [(k, 1#32 <<< a.lane)]) l
    | _ => l) []

/-- MT of the page that a lane's access to a physical address has just been translated by (R194): of SPACE 0 that of its offset, of SPACE 1 that
of the area's frame. -/
def State.laneType (s : State) (a : LaneAcc) (pa : Nat) : Nat :=
  let core := s.coreOf s.warp.ref.wg
  let hit (f : TlbEntry → Bool) : Option TlbEntry := ((s.coreAt core).tlb ++ s.l2tlb.getD (core / 4) []).find? fun t => t.tag == s.myTag && f t
  ((match resolvePlace s.fabric.node a.place a.off with
    | .own 0 off => hit fun t => t.space == 0 && t.page == off.toNat / 65536
    | _ => hit fun t => t.space == 1 && t.frame / 65536 == pa / 65536).map TlbEntry.mt).getD 0
/-- Make every sector of an access ready; the tokens that reads of a sector receive in place of its contents (R396). The warp's own earlier stores to
the sector leave first where `drain` is set, for an atomic, or where lanes must see them together; a load's others are forwarded (R216, R260). `toks`
are the tokens that the instruction has made: one cause makes one, whose LANES are all the lanes that meet it (R215, R376). -/
def State.prepare (s : State) (pc : DWord) (drain : Bool) (as : List LaneAcc) (toks : List (Cause × Word) := []) : State × List (Nat × Word) :=
  let die := s.myDie
  let tag := s.myTag
  let secs := sectorsOf as
  secs.foldl (fun (r : State × List (Nat × Word)) e =>
    let s := if drain || r.1.sharedRead as e.1 then r.1.drainOwn e.1 else r.1
    let kind (pa : Nat) : Option ErrorKind := (s.errorAt pa).map LatentError.kind
    let m := secs.foldl (fun m x => if (kind e.1).isSome ∧ kind x.1 = kind e.1 then m ||| x.2 else m) e.2
    let a := as.find? fun a => m.has a.lane
    let o := { s.here m pc with addr := a.map fun a => (a.off, a.place)
                                share := (toks.map fun t => (t.1.code, t.2)) ++ r.2.map fun x => (tokenCause x.2, x.2) }
    let q := s.access die tag e.1 o (((as.find? fun a => e.2.has a.lane).map fun a => s.laneType a e.1).getD 0)
    match q.2 with
    | some t => (q.1, r.2 ++ [(e.1, t)])
    | none => (q.1, r.2)) (s, [])

/-- The token of a sector: one that its read received, or the one it holds (R199). -/
def State.sectorToken (s : State) (die : Nat) (errs : List (Nat × Word)) (pa : Nat) : Option Word :=
  match errs.find? fun e => e.1 == pa / 32 * 32 with
  | some e => some e.2
  | none => s.tokenOf die pa

/-- A sub-word value extended to 32 bits (R218). -/
def extend (n : Nat) (sx : Bool) (x : Nat) : Word :=
  if sx then BitVec.ofInt 32 (intOf (8 * n) true x) else BitVec.ofNat 32 x

/-- Whether an entry of the Rack holds the sector that a place and a sector offset lead to. R389 holds writes of SPACE 0 and SPACE 2; bytes of
SPACE 1 are read from memory (log 17). -/
def RackEntry.holds (e : RackEntry) (own : Nat) (place : BitVec 16) (sec : DWord) : Bool :=
  match resolvePlace own place sec, e.off with
  | .own 1 _, _ => false
  | t, some o => resolvePlace own e.place o == t
  | _, none => false
/-- One byte of a paired launch's own held entries (R389): the newest that wrote it, and the token of its word where poisoned. -/
def heldByte (own : Nat) (rack : List RackEntry) (w : WarpRef) (place : BitVec 16) (off : Nat) : Option (Byte × Option Word) :=
  (rack.reverse.find? fun e => e.warp == w && e.mask.getLsbD (off % 32) && e.holds own place (BitVec.ofNat 64 (off / 32 * 32))).map fun e =>
    let k := off % 32
    (e.data.getD k 0#8,
     if e.pmask.getLsbD (k / 4) then some (BitVec.ofNat 32 (leNat ((e.data.drop (k / 4 * 4)).take 4))) else none)

/-- A value of `n` bytes as a lane reads it: held bytes where there are any, and the value `v` that memory gives elsewhere. -/
def mergeHeld (held : List (Option (Byte × Option Word))) (v : Val) : Val :=
  match held.findSome? fun h => h.bind Prod.snd with
  | some t => Val.poison t
  | none =>
    if v.psn && !held.all Option.isSome then v
    else
      let bs := natLE 4 v.bits.toNat
      Val.clean (BitVec.ofNat 32 (leNat ((List.range held.length).map fun i => match held.getD i none with
        | some h => h.1
        | none => bs.getD i 0#8)))

/-- One word, or the bytes of a sub-word access, as a lane reads it from device memory: its launch's held bytes, then its own stores that are
still in the queue (R260), then memory. -/
def State.readPiece (s : State) (die : Nat) (errs : List (Nat × Word)) (rack : List RackEntry) (w : WarpRef) (lane : Nat)
    (place : BitVec 16) (off : Nat) (p : Nat × Nat) : Val :=
  let own := (s.coreAt (s.coreOf w.wg)).storeQ
  mergeHeld ((List.range p.2).map fun i => heldByte s.fabric.node rack w place (off + i) <|> ((forwardByte own w lane (p.1 + i)).map fun b => (b, none))) (match s.sectorToken die errs p.1 with
    | some t => Val.poison t
    | none => Val.clean (BitVec.ofNat 32 (leNat (s.bytesAt die p.1 p.2))))

/-- Pieces cut into words; a piece of fewer than 4 bytes stays whole. -/
def wordPieces (ps : List (Nat × Nat)) : List (Nat × Nat) :=
  ps.flatMap fun p => if p.2 ≤ 4 then [p] else (List.range (p.2 / 4)).map fun i => (p.1 + 4 * i, 4)
/-- The words that a lane reads. -/
def State.readLane (s : State) (die : Nat) (errs : List (Nat × Word)) (rack : List RackEntry) (a : LaneAcc)
    (pieces : List (Nat × Nat)) (sub : Option (Nat × Bool)) : List Val :=
  let ps := wordPieces pieces
  (List.range ps.length).map fun i =>
    let v := s.readPiece die errs rack s.warp.ref a.lane a.place (a.off.toNat + 4 * i) (ps.getD i (0, 0))
    match sub with
    | some (n, sx) => if v.psn then v else Val.clean (extend n sx v.bits.toNat)
    | none => v

/-- A word of a peer line of the issuing die (R201, R267). -/
def State.peerWord (s : State) (die tag node off : Nat) : Option Val :=
  (s.mem.peers.find? fun p => p.die == die && p.node == node && p.off == off / 128 * 128 && p.tag == tag).map fun p =>
    p.data.getD (off % 128 / 4) Val.zero

/-- What a lane of a load has at issue: its words, or the node and offset it must ask. -/
inductive LaneLoad where
  | words (vs : List Val)
  | ask (node : Nat) (off : DWord)
  deriving DecidableEq, Repr, Inhabited

/-- The words that a lane reads of its launch's held bytes alone, where they cover the access (R389). -/
def State.heldWords (s : State) (rack : List RackEntry) (size : Nat) (sub : Option (Nat × Bool)) (a : LaneAcc) : Option (List Val) :=
  let byte (i : Nat) := heldByte s.fabric.node rack s.warp.ref a.place (a.off.toNat + i)
  if rack.isEmpty || (List.range size).any (fun i => (byte i).isNone) then none
  else
    let k := min size 4
    some ((List.range ((size + 3) / 4)).map fun i =>
      let v := mergeHeld ((List.range k).map fun j => byte (4 * i + j)) Val.zero
      match sub with
      | some (n, sx) => if v.psn then v else Val.clean (extend n sx (v.bits.toNat % 2 ^ (8 * n)))
      | none => v)
/-- The words of a peer line that a lane reads, with its launch's held bytes over them (R201, R389). -/
def State.peerWords (s : State) (die tag node size : Nat) (rack : List RackEntry) (sub : Option (Nat × Bool)) (a : LaneAcc) (off : DWord) :
    List Val :=
  (List.range ((size + 3) / 4)).map fun i =>
    let v := (s.peerWord die tag node (off.toNat + 4 * i)).getD Val.zero
    let k := min size 4
    let at' := if size < 4 then off.toNat % 4 else 0
    let v := if v.psn then v else Val.clean (BitVec.ofNat 32 (v.bits.toNat / 2 ^ (8 * at') % 2 ^ (8 * k)))
    let v := mergeHeld ((List.range k).map fun j => heldByte s.fabric.node rack s.warp.ref a.place (a.off.toNat + 4 * i + j)) v
    match sub with
    | some (n, sx) => if v.psn then v else Val.clean (extend n sx (v.bits.toNat % 2 ^ (8 * n)))
    | none => v
/-- The outcome of one lane of a load (R215, R389). -/
def State.laneLoad (s : State) (die tag chan size : Nat) (toks : List (Cause × Word)) (errs : List (Nat × Word))
    (rack : List RackEntry) (sub : Option (Nat × Bool)) (a : LaneAcc) : LaneLoad :=
  let n := (size + 3) / 4
  let held (x : LaneLoad) : LaneLoad := match s.heldWords rack size sub a with
    | some vs => .words vs
    | none => x
  match a.way with
  | .bad t => .words (List.replicate n (Val.poison t))
  | .fault c _ _ => .words (List.replicate n (Val.poison (tokenIn toks c)))
  | .mem _ ps => .words (s.readLane die errs rack a ps sub)
  | .host port hpa => held (.ask (hostNode port) (BitVec.ofNat 64 hpa))
  | .remote node off =>
    if !s.ownsSend tag node chan then .words (List.replicate n (Val.poison (tokenIn toks .protection)))
    else held (match s.peerWord die tag node off.toNat with
      | some _ => .words (s.peerWords die tag node size rack sub a off)
      | none => .ask node off)

/-- The words of a result, word by word, from the words lane by lane. -/
def byWord (n : Nat) (f : Nat → List Val) : List (List Val) := (List.range n).map fun w => lanes32 fun l => (f l).getD w Val.zero

/-- Send the requests of the lanes that ask, one for each distinct place they read (R216, R266, R269). -/
def State.askAll (s : State) (iss : Iss) (place : BitVec 16) (size : Nat) (sub : Option (Nat × Bool)) (res : Option Nat)
    (asks : List (Nat × Nat × DWord × DWord)) : State :=
  let keys := asks.foldl (fun ks a => if a.2 ∈ ks then ks else ks ++ [a.2]) ([] : List (Nat × DWord × DWord))
  keys.foldl (fun s k =>
    let r : Request :=
      { id := s.nextId, warp := s.warp.ref, res := res, copy := none, queue := none, lanes := (asks.filter fun a => a.2 == k).map Prod.fst, node := k.1
        off := k.2.1, raw := k.2.2, place := place, size := size, sub := sub, atom := none, issued := s.ctr s.myDie, die := s.myDie
        tag := s.myTag, pc := iss.pc, heldSeq := s.warp.region.heldSeq }
    let s := { s with nextId := s.nextId + 1 }
    let s := s.modFab fun f => { f with requests := f.requests ++ [r] }
    if 10000 ≤ k.1 then (s.drainHost).send (.hostRead (s.ctx s.myTag).func (k.1 - 10000) r.id k.2.1.toNat size)
    else s.send (.request k.1 { src := s.fabric.node, chan := iss.chan, reqId := r.id, index := 0#32, off := k.2.1, size := size, atom := none })) s

/-- The Rack of the issuing warp's core where its launch is paired (R389), else nothing. -/
def State.heldOf (s : State) : List RackEntry :=
  if s.myLaunch.paired then (s.coreAt (s.coreOf s.warp.ref.wg)).rack.filter fun e => e.warp == s.warp.ref else []

/-- Whether no sector that a lane's access touches is poisoned or holds an uncorrectable error, so that the lane's row of R215 is the last. -/
def State.cleanTarget (s : State) (die : Nat) (a : LaneAcc) : Bool := match a.way with
  | .mem _ ps => ps.all fun p => (s.tokenOf die p.1).isNone && (match s.errorAt p.1 with
      | some e => e.kind == .corrected
      | none => true)
  | _ => true

/-- The effect of a load: `addr` forms the address of a lane, `sub` is the width and extension of a sub-word load. -/
def State.loadBody (dsts : List Code) (addr : Iss → List Opd → Nat → BitVec 16 × (Word ⊕ DWord)) (size : Nat) (sub : Option (Nat × Bool))
    (acq seq : Bool) (nom : List Opd → Shape) (s : State) (iss : Iss) (os : List Opd) : State :=
  let s := s.ordered s.warp.ref iss.act
  let die := s.myDie
  let tag := s.myTag
  let place := (addr iss os 0).1
  let c := State.ways size size false (addr iss os) (lanesOf iss.act) s []
  let as := c.2
  let fs := c.1.laneFaults iss.chan (fun _ => true) as
  let t := c.1.tokensFor iss.pc fs
  let ok := as.filter fun a => !(fs.any fun x => x.lane == a.lane) && t.1.cleanTarget die a
  let scope := scopeOf iss.scope ok
  let s := if seq then (t.1.markRelease scope).seqFence scope else t.1
  -- bytes that the launch holds are not read from memory (R389)
  let rack := s.heldOf
  let p := s.prepare iss.pc false (as.filter fun a => (s.heldWords rack size sub a).isNone) t.2
  let s := p.1
  let outs := as.map fun a => (a, s.laneLoad die tag iss.chan size t.2 p.2 rack sub a)
  let got (l : Nat) : List Val := match outs.find? fun o => o.1.lane == l with
    | some (_, .words vs) => vs
    | _ => []
  let words := byWord ((size + 3) / 4) got
  let asks := outs.filterMap fun o => match o.2 with
    | .ask n off => some (o.1.lane, n, off, o.1.off)
    | .words _ => none
  let noms := dsts.map fun _ => nom os
  let least := s.leastOf false s.laneType ok
  if asks.isEmpty then
    ((if acq then s.acquire die scope else s).deliver iss.act iss.pc dsts words noms).modFocus fun w =>
      w.dueAt { reads := [], dsts := dsts } (s.ctr die + least)
  else
    let id := s.nextId
    let s := { s with nextId := id + 1 }
    let s := s.awaitResult { id := id, dsts := dsts, words := words, mask := iss.act, left := maskOfLanes (asks.map Prod.fst)
                             shapes := noms, pc := iss.pc, faults := [], flags := false, acq := acq, wideAcq := acq && decide (6 ≤ scope), dropped := false
                             toks := t.2, issued := s.ctr die, least := least }
    s.askAll iss place size sub (some id) asks

/-! ## Instructions that have issued and are not performed yet (R222, R236) -/

/-- What an instruction saw at its issue. -/
def Held.iss (h : Held) : Iss :=
  { act := h.act, pc := h.pc, env := { rm := h.rm, sat := false, ftz := false }, scope := h.scope, chan := h.chan, arr := none, xoff := h.xoff, scale := none }
/-- Its operands. -/
def Held.os (h : Held) : List Opd := h.vals.map fun v => { lanes := v.1, shape := v.2 }
/-- The issuing warp's instruction issues and is performed later; `swap` are codes that it may write beside its destinations (R215). The record
that stands for it. -/
def State.later (s : State) (i : Instr) (dsts swap : List Code) (iss : Iss) (os : List Opd) (lines : Nat) (secs : List Nat) : State × Held :=
  let id := s.nextId
  let h : Held := { i := i, res := if dsts.isEmpty then none else some id, act := iss.act, pc := iss.pc, rm := iss.env.rm, scope := iss.scope, chan := iss.chan
                    xoff := iss.xoff, vals := os.map fun o => (o.lanes, o.shape), lines := lines, secs := secs }
  let s := { s with nextId := id + 1 }
  (if dsts.isEmpty then s else s.awaitResult
    { id := id, dsts := dsts, words := [], mask := iss.act, left := iss.act, shapes := [], pc := iss.pc, faults := [], flags := false, acq := false
      wideAcq := false, dropped := false, swap := swap.map fun c => (c, []) }, h)
/-- The issuing warp's ordered access or FENCE issues and must wait (R236). -/
def State.hold (s : State) (i : Instr) (dsts swap : List Code) (iss : Iss) (os : List Opd) (lines : Nat) : State :=
  let r := s.later i dsts swap iss os lines []
  r.1.modFocus fun w => { w with held := some r.2 }
/-- An instruction of the issuing warp that issued before is performed: its result goes to the latch position that its issue reserved, and a drawer
destination stays invalid where a deschedule point has passed (R53, R56). -/
def State.asIssued (s : State) (h : Held) (lat : Nat) (body : State → Iss → List Opd → State) : State :=
  let w := s.warp
  let gone := ((w.pend.find? fun p => some p.id == h.res).map PendRes.dropped).getD false
  let s := body (s.modFocus fun w => { w with pend := w.pend.filter (fun p => some p.id != h.res), hints := Hints.fresh }) h.iss h.os
  let x := s.warp.latch.getD 0 Slot.fresh
  let due := s.ctr s.myDie + lat
  let keep (y : Slot) : Slot := if y.pend.isSome && y.pend == h.res then { x with due := max x.due due } else y
  let old (p : PendRes) : Bool := w.pend.any fun q => q.id == p.id
  s.modFocus fun u =>
    { u with hints := w.hints, latch := w.latch.map keep, drawer := if gone then w.drawer else u.drawer
             pend := u.pend.map fun p => if gone && !old p then { p with dropped := true } else p }
/-- The place register that PL names (R192). -/
def Warp.placeOf (w : Warp) (p : BitVec 2) : BitVec 16 := w.places.getD p.toNat 0#16
/-- The register codes of a load or store by SZ (R217). -/
def sizeCodes (sz : BitVec 3) (d : Code) : List Code :=
  if sz.toNat ≤ 2 then [d] else if sz = 3#3 then pairCodes d else quadCodes d
/-- The address of a lane of LD and ST. -/
def pairAddr (place : BitVec 16) (iss : Iss) (os : List Opd) (l : Nat) : BitVec 16 × (Word ⊕ DWord) :=
  laneAddr place (os.getD 0 default) (os.getD 1 default) iss.xoff l
/-- The effect of LD (R217 to R219). -/
def State.ldBody (d : Code) (p : BitVec 2) (sz : BitVec 3) (o : BitVec 2) (x : BitVec 1) (s : State) (iss : Iss) (os : List Opd) : State :=
  let place := s.warp.placeOf p
  let size := 2 ^ sz.toNat
  State.loadBody (sizeCodes sz d) (pairAddr place) size (if size < 4 then some (size, x == 1#1) else none) (o != 0#2) (o == 3#2)
    (fun os => if place.toNat % 8 != 1 && os.all (fun u => u.shape == .u) then .u else .g) s iss os
/-- A relaxed load of the issuing warp that issued before is performed. -/
def State.performLoad (s : State) (h : Held) : State :=
  let s := s.modFocus fun w => { w with late := w.late.filter fun x => x.res != h.res }
  match h.i with
  | .ld d _ p sz o x _ => s.asIssued h 0 (State.ldBody d p sz o x)
  | _ => s
/-- Before an access of the issuing warp to device memory, its loads of the same sectors that are not performed yet are: accesses to one location are
performed in program order (R222). -/
def State.performLate (s : State) (as : List LaneAcc) : State :=
  if s.warp.late.isEmpty then s
  else
    let secs := (sectorsOf as).map Prod.fst
    (s.warp.late.filter fun h => h.secs.any secs.contains).foldl State.performLoad s
/-- A relaxed load whose active lanes all read device memory of SPACE 0 may be performed later (R222, R275; log 72). -/
def State.mayDefer (s : State) (as : List LaneAcc) : Bool :=
  s.slack && !s.myLaunch.paired && as.all fun a => match a.way with
    | .mem 0 _ => true
    | _ => false

/-- LD (R217 to R219). C changes no value (R223). -/
def execLd (d a : BitVec 8) (p : BitVec 2) (sz : BitVec 3) (o : BitVec 2) (x c : BitVec 1) (s : State) : Out :=
  let place := s.warp.placeOf p
  let size := 2 ^ sz.toNat
  let i : Instr := .ld d a p sz o x c
  let dsts := sizeCodes sz d
  let waits := o == 3#2 && s.orderWaits true (s.scopeAt place)
  .next (s.issue i (Form.loads { reads := pairCodes a, slotA := pairCodes a, dsts := dsts }) false s.warp.gated fun s iss os =>
    if waits then s.hold i dsts [] iss os 0
    else
      let c := State.ways size size false (pairAddr place iss os) (lanesOf iss.act) s []
      let s := s.performLate c.2
      if o == 0#2 && s.mayDefer c.2 then
        let r := c.1.later i dsts [] iss os 0 ((sectorsOf c.2).map Prod.fst)
        r.1.modFocus fun w => { w with late := w.late ++ [r.2] }
      else s.ldBody d p sz o x iss os)

/-! ## Stores -/

/-- The bytes that a lane stores (R218). -/
def storeBytes (size : Nat) (vs : List Val) : List Byte :=
  if size < 4 then natLE size ((vs.headD Val.zero).bits.toNat)
  else vs.foldl (fun bs v => bs ++ natLE 4 v.bits.toNat) []

/-- What a lane of a store does. -/
inductive LaneStore where
  | held (h : HeldLane)
  /-- Held clean, in a paired launch (R389). -/
  | keep (h : HeldLane)
  | mem (ps : List (Nat × List Byte))
  | host (port hpa : Nat) (bs : List Byte)
  | remote (node : Nat) (off : DWord) (bs : List Byte)
  deriving DecidableEq, Repr, Inhabited

/-- The outcome of one lane of a store (R215, R280, R389). -/
def State.laneStore (s : State) (tag chan size : Nat) (toks : List (Cause × Word)) (paired : Bool) (vs : List Val)
    (a : LaneAcc) : LaneStore :=
  let own := s.fabric.node
  let none1 (t : Word) : LaneStore := .held { lane := a.lane, pieces := none, token := t }
  let bs := storeBytes size vs
  let wtok (i : Nat) : Option Word := let v := vs.getD (i / 4) Val.zero; if v.psn then some v.bits else none
  match a.way with
  | .bad t => none1 t
  | .fault c _ _ => none1 (tokenIn toks c)
  | w =>
    match firstPoison vs with
    | some t => .held { lane := a.lane, pieces := some (rackPieces own a size bs wtok), token := t }
    | none =>
      let keep := LaneStore.keep { lane := a.lane, pieces := some (rackPieces own a size bs fun _ => none), token := 0#32 }
      match w with
      | .mem sp ps => if paired && sp != 1 then keep else .mem (cutPieces ps bs)
      | .host port hpa => if paired then keep else .host port hpa bs
      | .remote node off =>
        if !s.ownsSend tag node chan then
          let t := tokenIn toks .protection
          .held { lane := a.lane, pieces := some (rackPieces own a size bs fun _ => some t), token := t }
        else if paired then keep else .remote node off bs
      | _ => none1 0#32

/-- The scope code that a Rack entry keeps, and its ORD code (R380). -/
def State.holdLanes (s : State) (iss : Iss) (place : BitVec 16) (ord : Nat) (atom : Bool) (held kept : List HeldLane) : State :=
  let proto := { RackEntry.blank s.myTag s.warp.ref iss.pc with
    place := place, atom := atom, chan := iss.chan, ord := ord, scope := iss.scope }
  let s := if held.isEmpty then s else s.flagMine (held.map HeldLane.token)
  let ws := rackWrites proto held ++ rackWrites { proto with held := true, poisoned := false } kept
  if ws.isEmpty then s else s.rackHold ws iss.pc

/-- The writes of the lanes that are performed, as store-queue actions: device memory merged by sector with the highest lane
winning (R216), then the others in lane order, counted writes taking their indices (R281). -/
def State.storeActs (s : State) (chan : Nat) (outs : List (Nat × LaneStore)) : State × List StoreAct :=
  let secs := outs.foldl (fun ws o => match o.2 with
    | .mem ps => ps.foldl (fun ws p => mergeBytes ws p.1 p.2) ws
    | _ => ws) ([] : List SectorWrite)
  outs.foldl (fun (r : State × List StoreAct) o => match o.2 with
    | .host port hpa bs => (r.1, r.2 ++ [.host port hpa ((List.range bs.length).map fun i => (hpa + i, bs.getD i 0#8)) false])
    | .remote node off bs =>
      let q := r.1.takeIndex node chan
      let q1 := q.1.dropPeers node off
      let pkt : WritePacket :=
        { src := q1.fabric.node, chan := chan, index := q.2, off := off, sectors := sectorRun 4 off.toNat bs, atom := none }
      (q1, r.2 ++ [.remote node pkt])
    | _ => r) (s, secs.map StoreAct.mem)

/-- The lanes that write each byte of the sector of an action, of which it holds the highest's (R216). -/
def writers (outs : List (Nat × LaneStore)) (a : StoreAct) : List Mask := match a with
  | .mem w => (List.range 32).map fun i => maskOfLanes ((outs.filter fun o => match o.2 with
      | .mem ps => ps.any fun p => decide (p.1 ≤ w.addr + i) && decide (w.addr + i < p.1 + p.2.length)
      | _ => false).map Prod.fst)
  | _ => []

/-- The clean addresses that the active lanes would form, with the offset of an XIMM (R81), for R236. -/
def State.peekOffs (s : State) (codes : List Code) (mul : Nat) (act : Mask) (xoff : DWord := 0#64) : List DWord :=
  (lanesOf act).filterMap fun l => (s.peeks codes l).map fun ws => BitVec.ofNat 64 (mul * (ws.foldr (fun x n => x.toNat + 2 ^ 32 * n) 0)) + xoff

/-- The active mask of the next issue. -/
def Warp.nextAct (w : Warp) : Mask := (w.group.map Prod.fst).getD 0#32

/-- The offset of R81 that the next instruction takes. -/
def Warp.nextOff (w : Warp) : DWord := if w.hints.xiFresh then w.hints.xi.signExtend 64 else 0#64
/-- The effect of a store: `addr` forms the address of a lane, the data are the operands from number `k` on. -/
def State.storeBody (addr : Iss → List Opd → Nat → BitVec 16 × (Word ⊕ DWord)) (k size ord : Nat) (s : State) (iss : Iss) (os : List Opd) : State :=
  let tag := s.myTag
  let place := (addr iss os 0).1
  let s := if ord != 0 then s.markRelease (s.scopeFor iss.scope place) else s
  let c := State.ways size size true (addr iss os) (lanesOf iss.act) s []
  let c := (c.1.performLate c.2, c.2)
  let as := c.2
  let vals (l : Nat) : List Val := (os.drop k).map fun o => laneOf o.lanes l
  let fs := c.1.laneFaults iss.chan (fun l => (firstPoison (vals l)).isNone) as
  let t := c.1.tokensFor iss.pc fs
  let paired := s.myLaunch.paired
  let outs := as.map fun a => (a.lane, t.1.laneStore tag iss.chan size t.2 paired (vals a.lane) a)
  let ok := as.filter fun a => outs.any fun o => o.1 == a.lane && (match o.2 with
    | .held _ => false
    | _ => true) && t.1.cleanTarget t.1.myDie a
  let s := if ord = 3 then t.1.seqFence (scopeOf iss.scope ok) else t.1
  let held := outs.filterMap fun o => match o.2 with
    | .held h => some h
    | _ => none
  let kept := outs.filterMap fun o => match o.2 with
    | .keep h => some h
    | _ => none
  let s := s.holdLanes iss place ord false held kept
  let q := s.storeActs iss.chan outs
  if q.2.isEmpty then q.1 else q.1.enqueue q.2 (writers outs)

/-! ## The instructions -/

/-- ST (R217, R218). -/
def execSt (d a : BitVec 8) (p : BitVec 2) (sz : BitVec 3) (o : BitVec 2) (c : BitVec 1) (s : State) : Out :=
  let place := s.warp.placeOf p
  let size := 2 ^ sz.toNat
  let i : Instr := .st d a p sz o c
  let lines := linesOf (place.toNat % 8) size (s.peekOffs (pairCodes a) 1 s.warp.nextAct s.warp.nextOff)
  let waits := o != 0#2 && s.orderWaits (o == 3#2) (s.scopeAt place)
  .next (s.issue i { reads := pairCodes a ++ sizeCodes sz d, slotA := pairCodes a, slotB := sizeCodes sz d } false
      (s.warp.gated || s.storeFull lines) fun s iss os =>
    if waits then s.hold i [] [] iss os lines else State.storeBody (pairAddr place) 2 size o.toNat s iss os)

/-- SPACE 1 of the own node, the place of LDP and STP (R220). -/
def privPlace : BitVec 16 := 0xFFF9#16
/-- The address of LDP and STP: four times the natural value of SA (R220), to which an XIMM adds nothing (R81; log 69). -/
def privAddr (os : List Opd) (l : Nat) : BitVec 16 × (Word ⊕ DWord) :=
  let v := laneOf (os.getD 0 default).lanes l
  (privPlace, if v.psn then .inl v.bits else .inr (BitVec.ofNat 64 (4 * v.bits.toNat)))

/-- LDP (R220). The result is nominally G. -/
def execLdp (d a : BitVec 8) (sz : BitVec 3) (c : BitVec 1) (s : State) : Out :=
  .next (s.issue (.ldp d a sz c) (Form.loads { reads := [a], slotA := [a], dsts := sizeCodes sz d }) false s.warp.gated fun s iss os =>
    State.loadBody (sizeCodes sz d) (fun _ os l => privAddr os l) (2 ^ sz.toNat) none false false (fun _ => .g) s iss os)

/-- STP (R220). -/
def execStp (d a : BitVec 8) (sz : BitVec 3) (c : BitVec 1) (s : State) : Out :=
  .next (s.issue (.stp d a sz c) { reads := a :: sizeCodes sz d, slotA := [a], slotB := sizeCodes sz d } false
      (s.warp.gated || s.storeFull (linesOf 1 (2 ^ sz.toNat) (s.peekOffs [a] 4 s.warp.nextAct))) fun s iss os =>
    State.storeBody (fun _ os l => privAddr os l) 1 (2 ^ sz.toNat) 0 s iss os)

end Sys2Proof.Machine
end

