-- ==== Sys2Proof/Machine/Atomic.lean ====
section
/-!
DEFINITION. ATOM, ATOMN (R225 to R227, R269) and FENCE (R228, R229).
-/
namespace Sys2Proof.Machine
open Sys2Proof

/-- The new value of an atomic operation on the old value `o` of its width (R226). -/
def atomApply (a : AtomOp) (o : Nat) : Nat :=
  let w := if a.wide then 64 else 32
  let v := a.operand.toNat % 2 ^ w
  let so := intOf w true o
  let sv := intOf w true v
  match a.aop with
  | 0 => (o + v) % 2 ^ w
  | 1 => if so ≤ sv then o else v
  | 2 => min o v
  | 3 => if sv ≤ so then o else v
  | 4 => max o v
  | 5 => (BitVec.ofNat w o &&& BitVec.ofNat w v).toNat
  | 6 => (BitVec.ofNat w o ||| BitVec.ofNat w v).toNat
  | 7 => (BitVec.ofNat w o ^^^ BitVec.ofNat w v).toNat
  | 8 => v
  | 9 => if v ≤ o then 0 else o + 1
  | 10 => if o = 0 ∨ v < o then v else o - 1
  | 11 => (fAdd fp32 { rm := a.rm, sat := false, ftz := false } o v).1
  | 12 => (fMinMax false false o v).1
  | 13 => (fMinMax true false o v).1
  | _ => if o = a.comparand.toNat % 2 ^ w then v else o

/-- The codes that VAL names (R225). -/
def valCodes (aop : BitVec 4) (w : BitVec 1) (v : Code) : List Code :=
  if aop = 14#4 then (if w = 0#1 then pairCodes v else quadCodes v) else (if w = 0#1 then [v] else pairCodes v)
/-- The codes that ATOM writes: all of VAL, or the comparand half of CAS (R227). -/
def oldCodes (w : BitVec 1) (v : Code) : List Code := if w = 0#1 then [v] else pairCodes v
/-- The swap half of VAL of a CAS, which only a lane that receives a token in VAL writes (R215, R227). -/
def swapCodes (aop : BitVec 4) (w : BitVec 1) (v : Code) : List Code := (valCodes aop w v).drop (oldCodes w v).length

/-- A 64-bit value from one or two operand words. -/
def wordsVal (vs : List Val) : DWord := joinWords (vs.getD 0 Val.zero).bits (vs.getD 1 Val.zero).bits

/-- The operation of a lane with its operand words (R225, R226). -/
def atomOf (aop : BitVec 4) (w : BitVec 1) (rm : Nat) (vs : List Val) : AtomOp :=
  let wide := w == 1#1
  let k := if wide then 2 else 1
  let one (vs : List Val) : DWord := if wide then wordsVal vs else (vs.getD 0 Val.zero).bits.setWidth 64
  { aop := aop.toNat, wide := wide, rm := rm
    operand := if aop = 14#4 then one (vs.drop k) else one vs
    comparand := if aop = 14#4 then one vs else 0#64 }

/-- Whether an atomic has a PCI Express AtomicOp request (R269). -/
def atomHasRequest (a : AtomOp) : Bool := a.aop == 0 || a.aop == 8 || a.aop == 14

/-- What a lane of an atomic meets. -/
inductive LaneAtom where
  | held (h : HeldLane)
  | go (a : AtomOp)
  | host (port hpa : Nat) (a : AtomOp)
  /-- A SPACE 2 operation that has no request (R269). -/
  | noRequest
  | remote (node : Nat) (off : DWord) (a : AtomOp)
  deriving DecidableEq, Repr, Inhabited

/-- The outcome of one lane of an atomic, before memory is read (R215, R269, R280). -/
def State.laneAtom (s : State) (tag chan size : Nat) (toks : List (Cause × Word)) (op : AtomOp) (vs : List Val) (a : LaneAcc) :
    LaneAtom :=
  let own := s.fabric.node
  let n := if op.wide then 2 else 1
  let data := if op.aop = 14 then vs.drop n else vs
  let wtok (i : Nat) : Option Word := firstPoison [data.getD (i / 4) Val.zero]
  let hold (t : Word) (f : Nat → Option Word) : LaneAtom :=
    .held { lane := a.lane, pieces := some (rackPieces own a size (storeBytes size data) f), token := t }
  match a.way with
  | .bad t => .held { lane := a.lane, pieces := none, token := t }
  | .fault c _ _ => .held { lane := a.lane, pieces := none, token := tokenIn toks c }
  | w =>
    match firstPoison vs with
    | some t => hold t fun i => if (firstPoison data).isSome then wtok i else some t
    | none =>
      match w with
      | .host port hpa =>
        if (s.svc.ports.getD port default).cxl || atomHasRequest op then .host port hpa op else .noRequest
      | .remote node off =>
        if s.ownsSend tag node chan then .remote node off op
        else hold (tokenIn toks .protection) fun _ => some (tokenIn toks .protection)
      | _ => .go op

/-- One lane's indivisible access to device memory at its home (R216, R227): the old value, or the token met. The write enters the view of die
`wr`, which for an arrival from another node is the bridge die (R264). -/
def State.atomAt (s : State) (die tag : Nat) (errs : List (Nat × Word)) (op : AtomOp) (pa : Nat) (wr : Nat := die) :
    State × Option Nat × Word :=
  let s := s.modMem fun d => d.catchUp die pa
  match s.sectorToken die errs pa with
  | some t => (s, none, t)
  | none =>
    let n := if op.wide then 8 else 4
    let o := leNat (s.bytesAt die pa n)
    (s.physWrite wr tag (sectorBytes pa (natLE n (atomApply op o))), some o, 0#32)

/-- The words of an old value. -/
def oldWords (wide : Bool) (o : Nat) : List Val :=
  if wide then [Val.clean (BitVec.ofNat 32 o), Val.clean (BitVec.ofNat 32 (o / 2 ^ 32))] else [Val.clean (BitVec.ofNat 32 o)]

/-- What a lane of an atomic asks another node or the host for: the offset there, and the offset that the lane formed. -/
structure AtomAsk where
  lane : Nat
  node : Nat
  off : DWord
  raw : DWord
  op : AtomOp
  deriving DecidableEq, Repr, Inhabited
/-- What an atomic has produced so far: the words of each finished lane, the tokens of the lanes that met one, those that flag the region, the
lanes that ask. -/
structure AtomRun where
  got : List (Nat × List Val)
  toks : List (Nat × Word)
  flagged : List Word
  asks : List AtomAsk
  deriving DecidableEq, Repr, Inhabited

/-- A request record of an atomic. -/
def State.atomRequest (s : State) (iss : Iss) (place : BitVec 16) (res : Option Nat) (k : AtomAsk) (toks : List (Cause × Word)) : Request :=
  { id := s.nextId, warp := s.warp.ref, res := res, copy := none, queue := none, lanes := [k.lane], node := k.node, off := k.off, raw := k.raw
    place := place, size := if k.op.wide then 8 else 4, sub := none, atom := some k.op, issued := s.ctr s.myDie, die := s.myDie, tag := s.myTag
    pc := iss.pc, heldSeq := s.warp.region.heldSeq, toks := toks }

/-- The location of a host atomic that is answered whole: the line in CXL mode, else the AtomicOp's own bytes. -/
def Request.sameLine (r k : Request) : Bool := r.node == k.node && r.off.toNat / 64 == k.off.toNat / 64
/-- An earlier atomic of the warp on the same host line is not answered yet: the next of its line is sent after it, so that lanes on one
location are applied in increasing lane order (R216). -/
def State.behindAtom (s : State) (r : Request) : Bool :=
  s.fabric.requests.any fun k => k.warp == r.warp && k.atom.isSome && k.sameLine r && decide (k.id < r.id)
/-- Send a host atomic: it asks for the line in CXL mode, else it goes as an AtomicOp (R224, R268, R269). -/
def State.sendAtomTo (s : State) (r : Request) : State :=
  match r.atom with
  | none => s
  | some op =>
    let port := r.node - 10000
    if (s.svc.ports.getD port default).cxl then s.send (.hostLineGet (s.ctx r.tag).func port r.id r.off.toNat)
    else s.send (.hostAtom (s.ctx r.tag).func port r.id r.off.toNat op)
/-- File an atomic to the host on a port, and send it unless it must follow another. -/
def State.sendHostAtom (s : State) (iss : Iss) (place : BitVec 16) (res : Option Nat) (k : AtomAsk) (toks : List (Cause × Word)) : State :=
  let r := s.atomRequest iss place res k toks
  let s := ({ s with nextId := s.nextId + 1 }.modFab fun f => { f with requests := f.requests ++ [r] }).drainHost
  if s.behindAtom r then s else s.sendAtomTo r
/-- An atomic of the host has been answered: the next of its warp on the line is sent. -/
def State.nextAtom (s : State) (r : Request) : State :=
  match s.fabric.requests.find? fun k => k.warp == r.warp && k.atom.isSome && k.sameLine r with
  | some k => s.sendAtomTo k
  | none => s

/-- The outcome of the active lanes of an atomic, one after another (R215, R216). `res` is none for ATOMN. -/
def State.atomLanes (iss : Iss) (place : BitVec 16) (wantsOld : Bool) (errs : List (Nat × Word)) (noReq : Word) :
    List (LaneAcc × LaneAtom) → State → AtomRun → State × AtomRun
  | [], s, r => (s, r)
  | (a, k) :: rest, s, r =>
    let die := s.myDie
    let tag := s.myTag
    match k with
    | .held h => atomLanes iss place wantsOld errs noReq rest s { r with toks := r.toks ++ [(a.lane, h.token)] }
    | .go op =>
      match a.way with
      | .mem _ ((pa, _) :: _) =>
        match s.atomAt die tag errs op pa with
        | (s', some o, _) =>
          atomLanes iss place wantsOld errs noReq rest s' { r with got := r.got ++ [(a.lane, oldWords op.wide o)] }
        | (s', none, t) =>
          atomLanes iss place wantsOld errs noReq rest s'
            { r with toks := r.toks ++ [(a.lane, t)], flagged := r.flagged ++ [t] }
      | _ => atomLanes iss place wantsOld errs noReq rest s r
    | .noRequest =>
      atomLanes iss place wantsOld errs noReq rest s
        { r with toks := r.toks ++ [(a.lane, noReq)], flagged := r.flagged ++ [noReq] }
    | .host port hpa op =>
      atomLanes iss place wantsOld errs noReq rest s
        { r with asks := r.asks ++ [{ lane := a.lane, node := hostNode port, off := BitVec.ofNat 64 hpa, raw := a.off, op := op }] }
    | .remote node off op =>
      atomLanes iss place wantsOld errs noReq rest (s.dropPeers node off)
        { r with asks := r.asks ++ [{ lane := a.lane, node := node, off := off, raw := a.off, op := op }] }

/-- Send the requests of the lanes that ask, in lane order: a counted request to a node (R281), or one to the host. An ATOMN to a
node is a counted write that never answers (R293), and the writes of one instruction take one entry for each line (R236). -/
def State.sendAtoms (s : State) (iss : Iss) (place : BitVec 16) (res : Option Nat) (asks : List AtomAsk) (toks : List (Cause × Word)) : State :=
  let r := asks.foldl (fun (r : State × List StoreAct) k =>
    if 10000 ≤ k.node then (r.1.sendHostAtom iss place res k toks, r.2)
    else
      let q := r.1.takeIndex k.node iss.chan
      let s := q.1
      match res with
      | none =>
        let pkt : WritePacket :=
          { src := s.fabric.node, chan := iss.chan, index := q.2, off := k.off, sectors := [], atom := some k.op }
        (s, r.2 ++ [.remote k.node pkt])
      | some _ =>
        let x := s.atomRequest iss place res k toks
        let s := { s with nextId := s.nextId + 1 }.modFab fun f => { f with requests := f.requests ++ [x] }
        (s.send (.request k.node { src := s.fabric.node, chan := iss.chan, reqId := x.id, index := q.2, off := k.off, size := x.size, atom := some k.op }), r.2))
    (s, [])
  if r.2.isEmpty then r.1 else r.1.enqueue r.2

/-- The words of VAL's codes from those of the lanes that finished, with the tokens of the lanes that met one. -/
def atomWords (n : Nat) (r : AtomRun) : List (List Val) :=
  byWord n fun l => match r.toks.find? fun t => t.1 == l with
    | some t => List.replicate n (Val.poison t.2)
    | none => ((r.got.find? fun g => g.1 == l).map Prod.snd).getD []

/-- The effect of ATOM, and of ATOMN where `wantsOld` is not set, on VAL `v`. -/
def State.atomBody (dsts : List Code) (v : Code) (place : BitVec 16) (aop : BitVec 4) (w : BitVec 1) (ord : BitVec 2) (wantsOld : Bool)
    (s : State) (iss : Iss) (os : List Opd) : State :=
  let acq := ord == 1#2 || ord == 3#2
  let rel := ord == 2#2 || ord == 3#2
  let align := if w = 0#1 then 4 else 8
  let s := s.ordered s.warp.ref iss.act
  let s := if rel then s.markRelease (s.scopeFor iss.scope place) else s
  let die := s.myDie
  let tag := s.myTag
  let addr := laneAddr place (os.getD 0 default) (os.getD 1 default) iss.xoff
  let c := State.ways align align true addr (lanesOf iss.act) s []
  let c := (c.1.performLate c.2, c.2)
  let as := c.2
  let vals (l : Nat) : List Val := (os.drop 2).map fun o => laneOf o.lanes l
  let opOf (l : Nat) : AtomOp := atomOf aop w iss.env.rm (vals l)
  let cleanOps (a : LaneAcc) : Bool := (firstPoison (vals a.lane)).isNone
  let noReq (a : LaneAcc) : Bool := match a.way with
    | .host port _ => !(c.1.svc.ports.getD port default).cxl && !atomHasRequest (opOf a.lane) && cleanOps a
    | _ => false
  -- the PROTECTION token of lanes with no request joins that of the other faults of the instruction (R215, R269)
  let fs := c.1.laneFaults iss.chan (fun l => (firstPoison (vals l)).isNone) as
    ++ (as.filter noReq).map fun a => ({ lane := a.lane, cause := .protection, place := a.place, off := a.off, space := 2, xoff := a.off } : LaneFault)
  let t := c.1.tokensFor iss.pc fs
  let ks := as.map fun a => (a, t.1.laneAtom tag iss.chan align t.2 (opOf a.lane) (vals a.lane) a)
  let done := ks.filterMap fun k => match k.2 with
    | .held _ => none
    | _ => some k.1
  let scope := scopeOf iss.scope done
  let p := t.1.prepare iss.pc true ((ks.filter fun k => match k.2 with
    | .go _ => true
    | _ => false).map Prod.fst) t.2
  let held := ks.filterMap fun k => match k.2 with
    | .held h => some h
    | _ => none
  let r := State.atomLanes iss place wantsOld p.2 (tokenIn t.2 .protection) ks p.1 { got := [], toks := [], flagged := [], asks := [] }
  let s := r.1.holdLanes iss place ord.toNat true held []
  let s := if r.2.flagged.isEmpty then s else s.flagMine r.2.flagged
  if !wantsOld then s.sendAtoms iss place none r.2.asks t.2
  else
    let words := atomWords dsts.length r.2
    let swap := (swapCodes aop w v).map fun c => (c, lanes32 fun l => (laneOf ((atomWords 1 { r.2 with got := [] }).headD []) l))
    let half := if swap.isEmpty then 0#32 else maskOfLanes (r.2.toks.map Prod.fst)
    let noms := dsts.map fun _ => Shape.g
    let least := s.leastOf true s.laneType done
    if r.2.asks.isEmpty then
      (((if acq then s.acquire die scope else s).deliver iss.act iss.pc dsts words noms).writeSwap half iss.pc true swap).modFocus fun w =>
        w.dueAt { reads := [], dsts := dsts } (s.ctr die + least)
    else
      let id := s.nextId
      let s := { s with nextId := id + 1 }
      let s := s.awaitResult { id := id, dsts := dsts, words := words, mask := iss.act
                               left := maskOfLanes (r.2.asks.map AtomAsk.lane), shapes := noms, pc := iss.pc, faults := [], flags := true, acq := acq
                               wideAcq := acq && decide (6 ≤ scope), dropped := false, toks := t.2, swap := swap, half := half, issued := s.ctr die
                               least := least }
      s.sendAtoms iss place (some id) r.2.asks t.2

/-- The issue of ATOM and ATOMN: one that releases waits after its issue (R236). -/
def State.atomic (s : State) (i : Instr) (f : Form) (v : Code) (place : BitVec 16) (aop : BitVec 4) (w : BitVec 1) (ord : BitVec 2)
    (wantsOld : Bool) : State :=
  let align := if w = 0#1 then 4 else 8
  let lines := if wantsOld then 0 else linesOf (place.toNat % 8) align (s.peekOffs (f.reads.take 2) 1 s.warp.nextAct s.warp.nextOff)
  let waits := (ord == 2#2 || ord == 3#2) && s.orderWaits false (s.scopeAt place)
  s.issue i f.atomics s.myLaunch.paired (s.warp.gated || s.countingCopy || (!wantsOld && s.storeFull lines)) fun s iss os =>
    if waits then s.hold i f.dsts (if wantsOld then swapCodes aop w v else []) iss os lines
    else State.atomBody f.dsts v place aop w ord wantsOld s iss os

/-- ATOM (R225 to R227). -/
def execAtom (v a : BitVec 8) (p : BitVec 2) (o : BitVec 4) (r : BitVec 2) (w : BitVec 1) (s : State) : Out :=
  .next (s.atomic (.atom v a p o r w)
    { reads := pairCodes a ++ valCodes o w v, slotA := pairCodes a, slotB := valCodes o w v, dsts := oldCodes w v }
    v (s.warp.placeOf p) o w r true)

/-- ATOMN (R225 to R227). -/
def execAtomn (v a : BitVec 8) (p : BitVec 2) (o : BitVec 4) (r : BitVec 2) (w : BitVec 1) (s : State) : Out :=
  .next (s.atomic (.atomn v a p o r w)
    { reads := pairCodes a ++ valCodes o w v, slotA := pairCodes a, slotB := valCodes o w v } v (s.warp.placeOf p) o w r false)

/-- The scope that SCOPE of a FENCE gives: 0 is device (R228). -/
def fenceScope (sc : BitVec 3) : Nat := if sc = 0#3 then 5 else sc.toNat
/-- A FENCE of a kind must still wait: an acquire for the thread's loads and atomics, any other for every earlier access too (R229). -/
def State.fenceWaits (s : State) (k : BitVec 2) (scope : Nat) : Bool :=
  if k = 1#2 then s.asking s.warp.ref else s.orderWaits (k == 3#2) scope
/-- The effect of FENCE (R229). -/
def State.fenceBody (k : BitVec 2) (sc : BitVec 3) (s : State) : State :=
  let scope := fenceScope sc
  let s := if k = 2#2 then s else s.acquire s.myDie scope
  let s := if k = 1#2 then s else s.markRelease scope
  if k = 3#2 then s.seqFence scope else s
/-- FENCE (R228, R229): KIND 0 ACQREL, 1 ACQ, 2 REL, 3 SEQ. One that must wait lets the warp's other instructions issue (R236). -/
def execFence (k : BitVec 2) (sc : BitVec 3) (s : State) : Out :=
  .next (s.issue (.fence k sc) { reads := [] } false s.warp.gated fun s iss os =>
    if s.fenceWaits k (fenceScope sc) then s.hold (.fence k sc) [] [] iss os 0 else s.fenceBody k sc)

end Sys2Proof.Machine
end

