-- ==== Sys2Proof/Machine/Barrier.lean ====
section
/-!
DEFINITION. Named barriers and the grid barrier (R330 to R332): BAR.ARRIVE, BAR.WAIT, BAR.SYNC, BAR.EXPECT and GBAR.
-/
namespace Sys2Proof.Machine
open Sys2Proof

/-- Act with the warp of a reference in the issuing place, and put the issuing warp back (model). -/
def State.asWarp (s : State) (r : WarpRef) (f : State → State) : State := (f (s.focus r)).focus s.warp.ref

/-- A warp whose instruction waits: the kind of its wait, and its word and active mask (R57, R72). -/
def Warp.waiting (w : Warp) (i : Instr) (act : Mask) (k : WaitKind) : Warp :=
  { w with wait := k, waitWord := encode i, waitMask := act }

/-! ## One barrier -/

/-- ARR of a warp (R330). -/
def Bar.arrOf (b : Bar) (w : WarpRef) : Mask := ((b.arr.find? fun a => a.1 == w).map Prod.snd).getD 0#32
/-- LAST of a warp, or none (R330). -/
def Bar.lastOf (b : Bar) (w : WarpRef) : Option Word := (b.last.find? fun a => a.1 == w).map Prod.snd
/-- Whether a warp is counted in the current phase: the exited lanes of a spatial warp count, those of a task warp do not
(R330). -/
def Bar.counted (b : Bar) (w : Warp) : Bool :=
  b.arrOf w.ref ||| (if w.isTask then 0#32 else w.exited) == fullMask
/-- The completion test; `ended` is the number of spatial warps with every lane exited (R330). -/
def Bar.test (ended : Nat) (b : Bar) : Bar :=
  if b.expect ≤ b.pend then { b with phase := b.phase + 1, pend := ended, arr := [] } else b
/-- Lanes of a warp arrive: a set bit stays set, and LAST becomes the current phase (R331). -/
def Bar.arrive (b : Bar) (w : Warp) (m : Mask) : Bar :=
  let arr := (w.ref, b.arrOf w.ref ||| m) :: b.arr.filter fun a => a.1 != w.ref
  let last := (w.ref, b.phase) :: b.last.filter fun a => a.1 != w.ref
  let n : Bar := { b with arr := arr, last := last }
  if n.counted w && !b.counted w then { n with pend := n.pend + 1 } else n
/-- A warp is `w` before and `w'` after an EXIT (R330). -/
def Bar.exits (b : Bar) (w w' : Warp) : Bar := if b.counted w' && !b.counted w then { b with pend := b.pend + 1 } else b
/-- The phase that a WAIT waits for (R331). -/
def Bar.target (b : Bar) (w : WarpRef) : Word := (b.lastOf w).getD b.phase
/-- A barrier at its reset value (R330). -/
def Bar.fresh (expect : Nat) : Bar := { expect := expect, pend := 0, phase := 0#32, arr := [], last := [] }

/-! ## The barriers of a workgroup and of a launch -/

/-- Whether a warp is a spatial warp with every lane exited. -/
def Warp.gone (w : Warp) : Bool := !w.isTask && w.exited == fullMask
/-- The spatial warps of a workgroup with every lane exited. -/
def State.goneCount (s : State) (wg : Nat) : Nat := ((s.warpsOf wg).filter Warp.gone).length
/-- A barrier of a workgroup. -/
def Wg.bar (g : Wg) (b : Nat) : Bar := g.bars.getD b default
/-- Change a barrier of a workgroup. -/
def State.modBar (s : State) (wg b : Nat) (f : Bar → Bar) : State := s.modWg wg fun g => { g with bars := updAt g.bars b f }
/-- The waits of a workgroup's warps on barrier `b` that its phase satisfies end (R331). -/
def State.releaseBar (s : State) (wg b : Nat) : State :=
  let p := (((s.wgOf wg).getD default).bar b).phase.toNat
  let f (w : Warp) : Warp := match w.wait with
    | .bar b' q => if w.ref.wg = wg ∧ b' = b ∧ q ≠ p then { w with wait := .none } else w
    | _ => w
  { s with warp := f s.warp, parked := s.parked.map f }
/-- Change barrier `b` of a workgroup, make the completion test and release the warps it lets go (R330). -/
def State.changeBar (s : State) (wg b : Nat) (f : Bar → Bar) : State :=
  (s.modBar wg b fun x => (f x).test (s.goneCount wg)).releaseBar wg b

/-- The grid barrier of a workgroup's launch and replica (R332, R388). -/
def State.gridBar (s : State) (g : Wg) : Bar := ((s.launchOf g.launch).gbars).getD g.replica default
/-- The spatial warps of a launch's replica with every lane exited: those that run on are resident or saved, the others have
ended with their workgroups (R332). -/
def State.gridGone (s : State) (g : Wg) : Nat :=
  let mine (w : Warp) : Bool := match s.wgOf w.ref.wg with
    | some h => h.launch == g.launch && h.replica == g.replica
    | none => false
  (s.gridBar g).expect - (s.allWarps.filter fun w => mine w && !w.isTask && w.exited != fullMask).length
/-- The waits of a launch's warps on the grid barrier that its phase satisfies end. -/
def State.releaseGrid (s : State) (g : Wg) : State :=
  let p := (s.gridBar g).phase.toNat
  let mine (w : Warp) : Bool := match s.wgOf w.ref.wg with
    | some h => h.launch == g.launch && h.replica == g.replica
    | none => false
  let f (w : Warp) : Warp := match w.wait with
    | .gbar q => if mine w && q != p then { w with wait := .none } else w
    | _ => w
  { s with warp := f s.warp, parked := s.parked.map f }
/-- Change the grid barrier of a workgroup's launch, test it and release the warps it lets go. Its completion is an acquire at device scope of
its members: what their releases cover is applied on every die first (R273, R332). -/
def State.changeGrid (s : State) (g : Wg) (f : Bar → Bar) : State :=
  let n := s.gridGone g
  let done := ((f (s.gridBar g)).test n).phase != (s.gridBar g).phase
  ((if done then s.modMem DevMem.sync else s).modLaunch g.launch fun l => { l with gbars := updAt l.gbars g.replica fun b => (f b).test n }).releaseGrid g

/-- The lanes of the issuing warp have exited: every barrier of its workgroup, and the grid barrier of a cooperative launch,
count it and are tested (R330, R332). `w` is the warp before. -/
def State.barExit (s : State) (w : Warp) : State :=
  let g := s.myWg
  let w' := s.warp
  let s := (List.range g.bars.length).foldl (fun s b => s.changeBar g.id b fun x => x.exits w w') s
  if (s.launchOf g.launch).gbars.isEmpty then s else s.changeGrid g fun b => b.exits w w'

/-! ## BAR (R331) -/

/-- The id names no barrier of the launch (R331). -/
def State.noBar (s : State) (im : BitVec 4) : Bool := decide (s.myLaunch.krec.nbar ≤ im.toNat)

/-- The active lanes arrive. -/
def State.barArrival (s : State) (iss : Iss) (im : BitVec 4) : State :=
  let w := s.warp
  s.changeBar w.ref.wg im.toNat fun b => b.arrive w iss.act
/-- The issuing warp waits on a barrier for phase `q`, unless it has completed. -/
def State.barWaitFor (s : State) (i : Instr) (iss : Iss) (im : BitVec 4) (q : Word) : State :=
  if (s.myWg.bar im.toNat).phase = q then s.modFocus fun w => w.waiting i iss.act (.bar im.toNat q.toNat) else s

/-- BAR.ARRIVE. -/
def execBarArrive (im : BitVec 4) (s : State) : Out :=
  .next (s.issue (.barArrive im) { reads := [] } (s.noBar im) (!s.released s.warp.ref false) fun s iss _ => s.barArrival iss im)
/-- BAR.WAIT: it waits for the phase in which the warp last arrived, or for the current one. -/
def execBarWait (im : BitVec 4) (s : State) : Out :=
  .next (s.issue (.barWait im) { reads := [], point := true } (s.noBar im) false fun s iss _ =>
    s.barWaitFor (.barWait im) iss im ((s.myWg.bar im.toNat).target s.warp.ref))
/-- BAR.SYNC: an arrival, then a wait for the phase in which it arrived. -/
def execBarSync (im : BitVec 4) (s : State) : Out :=
  .next (s.issue (.barSync im) { reads := [], point := true } (s.noBar im) (!s.released s.warp.ref false) fun s iss _ =>
    let q := (s.myWg.bar im.toNat).phase
    (s.barArrival iss im).barWaitFor (.barSync im) iss im q)
/-- The value of BAR.EXPECT is clean and outside 1 to 4,095 in the lowest active lane (R331, R415). -/
def State.badExpect (s : State) (a : BitVec 8) : Bool :=
  match s.peek a s.warp.nextAct.lowest with
  | some v => v.toNat == 0 || decide (4095 < v.toNat)
  | none => false
/-- BAR.EXPECT. -/
def execBarExpect (a : BitVec 8) (im : BitVec 4) (s : State) : Out :=
  .next (s.issue (.barExpect a im) { reads := [a], slotA := [a] } (s.noBar im || s.badExpect a) false fun s iss os =>
    let v := laneOf (os.getD 0 default).lanes iss.act.lowest
    if v.psn then s.flagMine [v.bits] else s.changeBar s.warp.ref.wg im.toNat fun b => { b with expect := v.bits.toNat })

/-- GBAR (R332): in a launch that is not cooperative it is suppressed. It is a release at device scope before it waits. -/
def execGbar (s : State) : Out :=
  .next (s.issue .gbar { reads := [], point := true } s.myLaunch.gbars.isEmpty (!s.released s.warp.ref false) fun s iss _ =>
    let g := s.myWg
    let w := s.warp
    let q := (s.gridBar g).phase
    -- only spatial warps are members (R332); a task warp waits for them (log 61)
    let s := s.changeGrid g fun b => if w.isTask then b else b.arrive w iss.act
    if (s.gridBar g).phase = q then s.modFocus fun w => w.waiting .gbar iss.act (.gbar q.toNat) else s)

end Sys2Proof.Machine
end

