-- ==== Sys2Proof/Machine/Recovery.lean ====
section
/-!
DEFINITION. Regions and commits (R378, R381 to R391), with the two events of each waiting commit, and the PTEST group (R392).
-/
namespace Sys2Proof.Machine
open Sys2Proof

/-! ## The entries of a warp -/

/-- The Rack entries of a warp, in SEQ order (R379). -/
def State.rackOf (s : State) (w : WarpRef) : List RackEntry := (s.coreAt (s.coreOf w.wg)).rack.filter fun e => e.warp == w
/-- The region's entries of the issuing warp (R382). -/
def State.regionEntries (s : State) : List RackEntry :=
  (s.rackOf s.warp.ref).filter fun e => decide (s.warp.region.rseq ≤ e.seq)
/-- Remove the issuing warp's entries for which `f` holds. -/
def State.dropEntries (s : State) (f : RackEntry → Bool) : State :=
  s.modCore (s.coreOf s.warp.ref.wg) fun c => { c with rack := c.rack.filter fun e => !(e.warp == s.warp.ref && f e) }
/-- Discard the region's entries. -/
def State.discardRegion (s : State) : State :=
  let q := s.warp.region.rseq
  s.dropEntries fun e => decide (q ≤ e.seq)

/-- What a commit clears for a replay (R385), and closing clears with the rest. -/
def Region.calm (r : Region) : Region :=
  { r with flag := false, causes := 0#64, nsvc := false, sreq := 0, first := 0#32 }
/-- Closing (R382, R391). -/
def Region.close (r : Region) : Region :=
  { r.calm with opened := false, replays := 0, rseq := r.heldSeq, mismatched := false }
/-- Change the issuing warp's region. -/
def State.modRegion (s : State) (f : Region → Region) : State := s.modFocus fun w => { w with region := f w.region }
/-- Whether RACK_OVERFLOW has been counted. -/
def Region.overflowed (r : Region) : Bool := r.causes.getLsbD 0x11

/-! ## COMMIT.X (R383) -/

/-- The PC, ADDR and PLACE of the Contact Sheet entry of a token, or zeros where the token is expired or its entry cannot be read (R375, R376,
R399). -/
def State.sheetSays (s : State) (t : Word) : DWord × DWord × BitVec 16 :=
  let off := (s.ctx s.myTag).csBase + BitVec.ofNat 64 (t.toNat % 65536 * 64)
  match (s.lookup none s.myDie s.myTag 0 off false).2 with
  | .fault _ => (0#64, 0#64, 0#16)
  | .leaf l =>
    let p := s.readPlace s.myDie (l.frame + off.toNat % 65536)
    let bs := p.1.bytes p.2 64
    let flags := numAt bs 1 1
    if (p.1.token p.2).isNone && (p.1.token (p.2 + 32)).isNone && flags % 2 == 1
        && numAt bs 2 2 == t.toNat / 65536 % 1024 then
      (BitVec.ofNat 64 (numAt bs 8 8), if flags / 2 % 2 = 1 then BitVec.ofNat 64 (numAt bs 0x20 8) else 0#64
        , if flags / 2 % 2 = 1 then BitVec.ofNat 16 (numAt bs 0x28 2) else 0#16)
    else (0#64, 0#64, 0#16)
/-- A fault record of the issuing warp's context, KIND 0, for a token: PC as in its Contact Sheet entry, and ADDR and PLACE too unless
the record names a write (R399). -/
def State.commitRecord (s : State) (grade cause : Nat) (token : Word) (write : Option (DWord × BitVec 16)) : State :=
  let e := s.sheetSays token
  let a := write.getD e.2
  s.pushRecord s.myTag (faultRecord grade cause 0 s.myLaunch.pkt.launchId e.1 a.1 token a.2)
/-- The record of an entry that names no place in memory (R383). -/
def State.lostRecord (s : State) (e : RackEntry) : State :=
  let c := tokenCause e.token
  s.commitRecord (causeGrade c) c e.token (e.off.map fun o => (o, e.place))

/-- Where an entry's sector lies: device memory, or nothing where its translation fails now (log 18). -/
def State.entryFrame (s : State) (space : Nat) (off : DWord) : State × Option Nat :=
  let r := s.lookup (some (s.coreOf s.warp.ref.wg)) s.myDie s.myTag space off true
  (r.1, match r.2 with
    | .leaf t => some (t.frame + off.toNat % 65536)
    | .fault _ => none)

/-- Write an entry: whole as a poison sector with token `t`, or its clean bytes (R383, R391). Each write takes an entry of the store queue (R393). -/
def State.writeEntry (s : State) (e : RackEntry) (tok : Option Word) : State :=
  let mem (s : State) (pa : Nat) : State := s.enqueue [.mem (match tok with
    | some t => sectorPoison pa t
    | none => { addr := pa / 32 * 32, mask := e.mask, data := e.data, poison := none })]
  let local' (space : Nat) (off : DWord) : State :=
    match s.entryFrame space off with
    | (s, some pa) => mem s pa
    | (s, none) => s.lostRecord e
  match e.off with
  | none => s.lostRecord e
  | some off =>
    if e.place.toNat % 8 = 1 then local' 1 (BitVec.ofNat 64 (s.warp.privBase + off.toNat))
    else match resolvePlace s.fabric.node e.place off with
    | .own 2 o =>
      match s.entryFrame 2 o with
      | (s, none) => s.lostRecord e
      | (s, some pa) =>
        let port := s.portOf s.myTag
        match tok with
        | none => s.enqueue [.host port pa ((List.range 32).filterMap fun i =>
            if e.mask.getLsbD i then some (pa + i, e.data.getD i 0#8) else none) false]
        | some t =>
          let s := s.enqueue [.host port pa ((List.range 32).map fun i => (pa + i, e.data.getD i 0#8)) true]
          s.commitRecord 3 (tokenCause t) t (some (off, e.place))
    | .own sp o => local' sp o
    | .node n o =>
      let q := s.takeIndex n e.chan
      let w : SectorWrite := match tok with
        | some t => { addr := o.toNat, mask := 0#32, data := [], poison := some t }
        | none => { addr := o.toNat, mask := e.mask, data := e.data, poison := none }
      (q.1.dropPeers n o).enqueue [.remote n
        { src := s.fabric.node, chan := e.chan, index := q.2, off := o, sectors := [w], atom := none }]
    | .reserved => s.lostRecord e

/-- A poisoned entry of a paired launch becomes a held entry whose whole sector is poison (R383). -/
def RackEntry.keepPoison (e : RackEntry) : RackEntry :=
  if e.poisoned && e.off.isSome then
    { e with held := true, mask := 0xFFFFFFFF#32, pmask := 0xFF#8
             data := (List.range 32).map fun i => (natLE 4 e.token.toNat).getD (i % 4) 0#8 }
  else { e with held := true }
/-- COMMIT.X of a paired launch keeps its poison held. -/
def State.keepPoison (s : State) : State :=
  let r := s.warp.ref
  let q := s.warp.region.rseq
  s.modCore (s.coreOf r.wg) fun c => { c with rack := c.rack.map fun e =>
    if e.warp = r ∧ q ≤ e.seq then e.keepPoison else e }

/-- Words of the issuing warp's Rack entries that hold an error are corrected, or become LINE_POISON, as the commit at `pc` reads them (R394,
R396). -/
def State.settleRack (s : State) (pc : DWord) : State :=
  s.svc.wordErrors.foldl (fun s x => match x.loc with
    | .rack core k w =>
      if core = s.coreOf s.warp.ref.wg ∧ (s.coreAt core).rack[k]?.map RackEntry.warp = some s.warp.ref then
        let s := s.foundWord s.myDie x
        if x.soft then s
        else
          let t := s.mkToken s.myTag .linePoison (s.here 0#32 pc)
          t.1.modCore core fun c => { c with rack := updAt c.rack k fun e => (e.overlay (4 * w) (natLE 4 t.2.toNat) (some t.2)).seal }
      else s
    | _ => s) s
/-- The writes and records of the COMMIT.X of the instruction at `pc`, before the region closes. -/
def State.publish (s : State) (pc : DWord) : State :=
  let s := s.settleRack pc
  if s.myLaunch.paired then s.keepPoison
  else
    let es := s.regionEntries
    let s1 := es.foldl (fun s e => s.writeEntry e (some e.token)) s.discardRegion
    let f := s.warp.region.first
    if s.warp.region.overflowed then s1.commitRecord 0 0x11 (if tokenCause f = 0x11 then f else 0#32) none else s1
/-- COMMIT.X by the instruction at `pc` (R383). -/
def State.commitX (s : State) (pc : DWord) : State := (s.publish pc).modRegion Region.close

/-! ## The conditions of a commit (R382) -/

/-- Fewer lanes are active than have not exited. -/
def Warp.partialGroup (w : Warp) : Bool := w.nextAct != w.live
/-- The start of a commit: every earlier access is performed and every earlier result has arrived. -/
def State.commitWaits (s : State) : Bool := !s.released s.warp.ref false || !s.warp.pend.isEmpty
/-- The stall of a commit that may write its entries (R382, R393). -/
def State.commitStall (s : State) : Bool := s.commitWaits || s.storeFull s.regionEntries.length

/-! ## RGN and COMMIT -/

/-- RGN (R381). -/
def execRgn (s : State) : Out :=
  let busy := s.warp.region.flag || !(s.rackOf s.warp.ref).isEmpty
  .next (s.issue .rgn { reads := [] } s.warp.region.opened (busy && s.commitStall) fun s iss _ =>
    let s := if busy then s.commitX iss.pc else s
    s.modRegion fun r => { r with opened := true, rpc := iss.pc + 4#64, rseq := r.heldSeq, replays := 0 })

/-- COMMIT.X (R383). -/
def execCommitX (s : State) : Out :=
  .next (s.issue .commitX { reads := [] } s.warp.partialGroup s.commitStall fun s iss _ => s.commitX iss.pc)

/-- The fallback of COMMIT.B (R384). -/
def State.fallBack (s : State) (act : Mask) (target : DWord) : State :=
  (s.discardRegion.modRegion Region.close).modFocus fun w => w.setPcs act fun _ => target
/-- A branch target (R80). -/
def branchTarget (pc : DWord) (off : BitVec n) : DWord := pc + 4#64 * off.signExtend 64
/-- COMMIT.B (R384). -/
def execCommitB (o : BitVec 17) (s : State) : Out :=
  .next (s.issue (.commitB o) { reads := [] } s.warp.partialGroup s.commitWaits fun s iss _ =>
    if s.warp.region.flag then s.fallBack iss.act (branchTarget iss.pc o) else s.modRegion Region.close)

/-- COMMIT.R (R385): a deschedule point in every outcome. -/
def execCommitR (o : BitVec 17) (s : State) : Out :=
  .next (s.issue (.commitR o) { reads := [], point := true } s.warp.partialGroup s.commitWaits fun s iss _ =>
    let r := s.warp.region
    if !r.flag then s.modRegion Region.close
    else if r.opened && !r.nsvc && decide (r.replays < 15) then s.modFocus fun w => w.waiting (.commitR o) iss.act (.commitR o)
    else s.fallBack iss.act (branchTarget iss.pc o))

/-- The wait of COMMIT.R is over: the requests up to SREQ are resolved, and SREQ 0 is none (R378, R385, R398). -/
def State.replayReady (s : State) (w : Warp) : Bool :=
  w.status == .running && (match w.wait with
    | .commitR _ => w.region.sreq == 0 || (s.ctx ((s.wgOf w.ref.wg).getD default).tag).resolved w.region.sreq
    | _ => false)
/-- COMMIT_R_REPLAY (R385). -/
def execCommitRReplay (w : WarpRef) (s : State) : Out :=
  .next (match s.getWarp w with
    | none => s
    | some x =>
      if s.replayReady x then
        s.asWarp w fun s =>
          (s.discardRegion.modRegion fun r => { r.calm with replays := r.replays + 1 }).modFocus fun w =>
            { w.setPcs w.live fun _ => w.region.rpc with wait := .none }
      else s)

/-! ## Paired execution (R388 to R391) -/

/-- One bit of the CRC-64 of ECMA-182 (R390). -/
def crcBit (c : DWord) : DWord := if c.getLsbD 63 then (c <<< 1) ^^^ 0x42F0E1EBA9EA3693#64 else c <<< 1
/-- One byte. -/
def crcByte (c : DWord) (b : Byte) : DWord := Nat.repeat crcBit 8 (c ^^^ (b.setWidth 64 <<< 56))
/-- The CRC-64 of a byte string (R390). -/
def crc64 (bs : List Byte) : DWord := bs.foldl crcByte 0#64

/-- The bytes that an entry contributes to a signature (R390). -/
def RackEntry.signBytes (e : RackEntry) : List Byte :=
  natLE 2 e.place.toNat ++ natLE 8 (e.off.getD 0#64).toNat ++ natLE 4 e.mask.toNat ++ natLE 1 (e.ord % 4 + 4 * (e.scope % 8))
    ++ (List.range 32).map fun i =>
      if e.pmask.getLsbD (i / 4) then
        (if i % 4 = 0 then BitVec.ofNat 8 (tokenCause (BitVec.ofNat 32 (leNat ((e.data.drop i).take 4)))) else 0#8)
      else if e.mask.getLsbD i then e.data.getD i 0#8 else 0#8
/-- The signature of a warp: of every entry since its last COMMIT.P (R390). -/
def State.signature (s : State) (w : WarpRef) : DWord := crc64 ((s.rackOf w).flatMap RackEntry.signBytes)

/-- The partner of a warp (R388). -/
def State.partnerOf (s : State) (w : WarpRef) : WarpRef := { w with wg := ((s.wgOf w.wg).getD default).partner }

/-- What a warp is once every lane has exited: a task with a parent and AUTOJOIN still owes its join (R24, R40). -/
def Warp.endStatus (w : Warp) : WarpStatus :=
  if !w.isTask then .ended
  else match w.task with
    | some t => if t.flags % 2 = 1 ∧ t.parent ≠ 0 then .joining else .idle
    | none => .idle
/-- The issuing warp ends as its EXIT gives, once the commit of R387 is made. -/
def State.endWarp (s : State) : State :=
  let w := s.warp
  let s := s.modFocus fun w => { w with exited := fullMask, wait := .none, status := w.endStatus }
  s.barExit w
/-- The record of R387 with FIRST and the highest grade, from the region as it stood before its commit. -/
def State.exitRecord (s : State) (r : Region) : State :=
  let grade := (List.range 64).foldl (fun g c => if r.causes.getLsbD c then max g (causeGrade c) else g) 0
  s.commitRecord grade (tokenCause r.first) r.first none

/-- Perform one entry of replica 0 with its own ORDER (R391). -/
def State.performEntry (s : State) (e : RackEntry) : State :=
  let mine (x : StoreEntry) : Bool := x.warp == s.warp.ref
  let s := if e.ord % 4 = 0 then s else s.drainWhere (s.coreOf s.warp.ref.wg) mine
  let s := if e.ord % 4 = 3 then s.seqFence (if e.scope = 0 then 5 else e.scope) else s
  s.writeEntry e (if e.poisoned then some e.token else none)

/-- The PC of a waiting COMMIT.P, or of the EXIT that it stands for: the warp's lanes have passed it. -/
def Warp.commitPc (w : Warp) : DWord := w.pcOf w.live.lowest - 4#64
/-- One replica's warp replays (R391): one PAIR_MISMATCH entry of the instruction at `pc`, and the region's entries discarded. -/
def State.replayPair (s : State) (pc : DWord) : State :=
  let t := s.mkToken s.myTag .pairMismatch (s.here 0#32 pc)
  (t.1.discardRegion.modRegion fun r => { r with mismatched := true }).modFocus fun w => w.setPcs w.live fun _ => w.region.rpc
/-- Whether a mismatch makes a region replay (R391). -/
def Region.mayReplay (r : Region) : Bool := r.opened && !r.mismatched
/-- The issuing warp's COMMIT.P ends (R391). `mismatch` is its comparison, `ovf` that RACK_OVERFLOW is held. -/
def State.commitPEnd (s : State) (atExit mismatch ovf : Bool) : State :=
  let r := s.warp.region
  let first := s.myWg.replica == 0
  let es := s.rackOf s.warp.ref
  let s0 := s.modFocus fun w => { w with wait := .none }
  let closeP (s : State) : State :=
    let s := s.modRegion fun r => { r.close with pcount := (r.pcount + 1) % 2 ^ 32 }
    if atExit then (s.exitRecord r).endWarp else s
  if !mismatch then
    let s := s0.dropEntries fun _ => true
    closeP (if first then es.foldl State.performEntry s else s)
  else if r.mayReplay then s0.replayPair s.warp.commitPc
  else
    let s := s0.dropEntries fun _ => true
    closeP (if first then
      let t := s.mkToken s.myTag (if ovf then .rackOverflow else .pairMismatch) (s.here 0#32 s.warp.commitPc)
      let s := es.foldl (fun s e => s.writeEntry { e with token := t.2 } (some t.2)) t.1
      s.commitRecord (if ovf then 0 else 1) (if ovf then 0x11 else 0x10) t.2 none
    else s)

/-- What a warp that was taken is when it goes on: running, or what its exited lanes make it (R57). -/
def Warp.untake (w : Warp) : Warp :=
  if w.status = .taken then { w with status := if w.exited = fullMask then w.endStatus else .running, fetchHold := none, ir := none }
  else w
/-- The COMMIT.P of a paired launch begins its wait (R391). A preemption waits until every COMMIT.P of the unit has finished, so a
partner that has been taken, and is not saved yet, goes on to its own (R388). -/
def State.commitPBegin (s : State) (i : Instr) (iss : Iss) (atExit : Bool) : State :=
  let s := s.settleRack iss.pc
  let s := if s.warp.region.flag then s.keepPoison else s
  let t := s.ctr s.myDie
  let p := s.partnerOf s.warp.ref
  let s := if ((s.wgOf p.wg).getD default).saved then s else s.modWarp p Warp.untake
  s.modFocus fun w => w.waiting i iss.act (.commitP t atExit)

/-- COMMIT.P (R391). -/
def execCommitP (s : State) : Out :=
  .next (s.issue .commitP { reads := [] } s.warp.partialGroup s.commitStall fun s iss _ =>
    if s.myLaunch.paired then s.commitPBegin .commitP iss false else s.commitX iss.pc)

/-- What a COMMIT.P waits with: its start and whether it is an EXIT's. -/
def Warp.commitWait (w : Warp) : Option (Nat × Bool) := match w.wait with
  | .commitP t e => some (t, e)
  | _ => none
/-- Whether a warp of a replica has ended, its workgroup with it perhaps. -/
def State.warpEnded (s : State) (w : WarpRef) : Bool := match s.getWarp w with
  | none => true
  | some x => x.status == .ended
/-- Whether the wait of a COMMIT.P can end now: the partner waits at its own, is past it, or has ended (R391). -/
def State.pairReady (s : State) (x : Warp) : Bool :=
  x.status == .running && x.commitWait.isSome && (match s.getWarp (s.partnerOf x.ref) with
    | none => true
    | some y => y.status == .ended || decide (x.region.pcount < y.region.pcount)
        || (y.commitWait.isSome && y.region.pcount == x.region.pcount))
/-- COMMIT_P_MATCH (R391). -/
def execCommitPMatch (w : WarpRef) (s : State) : Out :=
  .next (match s.getWarp w with
    | none => s
    | some x =>
      match x.commitWait with
      | none => s
      | some (_, ex) =>
        if !s.pairReady x then s
        else
          let p := s.partnerOf w
          -- the commit reads the entries of both (R396)
          let s := s.asWarp w fun s => s.settleRack x.commitPc
          match s.getWarp p with
          | some y =>
            match if y.region.pcount = x.region.pcount then y.commitWait else none with
            | some (_, ey) =>
              let s := s.asWarp p fun s => s.settleRack y.commitPc
              let sig := s.signature w != s.signature p
              let ovf := x.region.overflowed || y.region.overflowed
              let s := s.asWarp w fun s => s.commitPEnd ex (ovf || sig) ovf
              s.asWarp p fun s => s.commitPEnd ey (ovf || sig) ovf
            | none =>
              -- the partner ended, or its n-th COMMIT.P is over in a mismatch
              let late := y.status != .ended || !ex
              let sig := s.signature w != s.signature p
              s.asWarp w fun s => s.commitPEnd ex (late || x.region.overflowed || sig) x.region.overflowed
          | none =>
            let sig := s.signature w != s.signature p
            s.asWarp w fun s => s.commitPEnd ex (!ex || x.region.overflowed || sig) x.region.overflowed)
/-- A replica that has not come to its COMMIT.P in time replays with the other, unless its region is closed or has replayed (R391; log 17). -/
def State.replayLate (s : State) (n : Nat) (p : WarpRef) : State :=
  match s.getWarp p with
  | some y =>
    if y.status == .running && y.region.mayReplay && y.region.pcount == n then s.asWarp p fun s => s.replayPair (y.pcOf y.live.lowest) else s
  | none => s
/-- COMMIT_P_TIMEOUT (R391): 2^20 cycles of the warp's die have passed. Both replicas replay where the waiting one may. -/
def execCommitPTimeout (w : WarpRef) (s : State) : Out :=
  .next (match s.getWarp w with
    | none => s
    | some x =>
      match x.commitWait with
      | none => s
      | some (t, ex) =>
        if x.status == .running && decide (t + 2 ^ 20 ≤ s.ctr (dieOf (s.coreOf w.wg))) && !s.pairReady x then
          let s := s.asWarp w fun s => s.settleRack x.commitPc
          let t := s.asWarp w fun s => s.commitPEnd ex true s.warp.region.overflowed
          if x.region.mayReplay then t.replayLate x.region.pcount (s.partnerOf w) else t
        else s)

/-! ## The PTEST group (R392) -/

/-- A clean result in the class "every other" from a function of a poisoned lane's token. -/
def State.inspect (s : State) (i : Instr) (d a : Code) (f : Word → Word) (clean : Word → Word) : State :=
  s.aluVals i (formU d a) nomOther fun _ vs =>
    let v := vs.headD Val.zero
    Val.clean (if v.psn then f v.bits else clean v.bits)
/-- PTEST. -/
def execPtest (d a : BitVec 8) (s : State) : Out := .next (s.inspect (.ptest d a) d a (fun _ => 1#32) fun _ => 0#32)
/-- PINFO.CAUSE. -/
def execPinfoCause (d a : BitVec 8) (s : State) : Out :=
  .next (s.inspect (.pinfoCause d a) d a (fun t => BitVec.ofNat 32 (tokenCause t)) fun _ => 0#32)
/-- PFILL. -/
def execPfill (d a : BitVec 8) (s : State) : Out := .next (s.inspect (.pfill d a) d a (fun _ => 0#32) id)

/-- The read of the first four bytes of a token's slot (R376, R392): whether the token has not expired, by VALID and GEN alone (R375). A page miss
queues its request (R195). -/
def State.sheetRead (s : State) (pc : DWord) (act : Mask) (t : Word) : State × Bool :=
  let c := s.ctx s.myTag
  let off := c.csBase + BitVec.ofNat 64 (t.toNat % 65536 * 64)
  let o := { s.here act pc with addr := some (off, 0xFFF8#16) }
  let r := s.lookup (some (s.coreOf s.warp.ref.wg)) s.myDie s.myTag 0 off false
  match r.2 with
  | .fault .pageMiss => ((r.1.svcReq s.myTag 0 off o).1, false)
  | .fault _ => (r.1, false)
  | .leaf l =>
    let pa := l.frame + off.toNat % 65536
    let a := (r.1.drainOwn pa).access s.myDie s.myTag pa o l.mt
    let v := a.1.wordAt s.myDie pa
    (a.1, a.2.isNone && !v.psn && v.bits.getLsbD 8 && decide (v.bits.toNat / 65536 % 1024 = t.toNat / 65536 % 1024))
/-- PINFO.ENTRY. -/
def execPinfoEntry (d a : BitVec 8) (s : State) : Out :=
  .next (s.issue (.pinfoEntry d a) (formU d a).loads false s.warp.acquiring fun s iss os =>
    let s := s.ordered s.warp.ref
    let vs := (os.getD 0 default).lanes
    let toks := (lanesOf iss.act).foldl (fun ts l => let v := laneOf vs l
      if v.psn && !ts.contains v.bits then ts ++ [v.bits] else ts) ([] : List Word)
    let r := toks.foldl (fun (r : State × List (Word × Bool)) t =>
      let q := r.1.sheetRead iss.pc (maskOf fun l => iss.act.has l && laneOf vs l == Val.poison t) t
      (q.1, r.2 ++ [(t, q.2)])) (s, [])
    let out (v : Val) : Val :=
      if v.psn then
        let live := ((r.2.find? fun e => e.1 == v.bits).map Prod.snd).getD false
        Val.clean (BitVec.ofNat 32 (2 ^ 31 + (if live then 0 else 2 ^ 30) + v.bits.toNat % 2 ^ 26))
      else Val.zero
    r.1.deliver iss.act iss.pc [d] [vs.map out] [nomOther os])
/-- PSET: one INJECTED token for the clean lanes. -/
def execPset (d a : BitVec 8) (s : State) : Out :=
  .next (s.issue (.pset d a) (formU d a) false false fun s iss os =>
    let vs := (os.getD 0 default).lanes
    let clean := maskOf fun l => iss.act.has l && !(laneOf vs l).psn
    let r := if clean = 0#32 then (s, 0#32)
      else s.mkToken s.myTag .injected { s.here clean iss.pc with aux := (laneOf vs clean.lowest).bits }
    r.1.deliver iss.act iss.pc [d] [withToken clean r.2 vs] [nomOther os])

end Sys2Proof.Machine
end

