-- ==== Sys2Proof/Machine/Control.lean ====
section
/-!
DEFINITION. Control flow (R309 to R318): NOP, BRA, BZ, BNZ, BRX, CALL, RET, EXIT, YIELD, BRK, SIGNAL and CLOCK.
-/
namespace Sys2Proof.Machine
open Sys2Proof

/-- NOP (R310). -/
def execNop (s : State) : Out := .next (s.issue .nop { reads := [] } false false fun s _ _ => s)
/-- BRA (R310). -/
def execBra (o : BitVec 25) (s : State) : Out :=
  .next (s.issue (.bra o) { reads := [], point := s.warp.hints.yp } false false fun s iss _ =>
    s.modFocus fun w => w.setPcs iss.act fun _ => branchTarget iss.pc o)

/-- The distinct tokens of a list, in order. -/
def distinct (ts : List Word) : List Word := ts.foldl (fun l t => if t ∈ l then l else l ++ [t]) []
/-- A conditional branch: a poisoned lane falls through and flags the region (R311). -/
def State.branchOn (s : State) (i : Instr) (a : Code) (o : BitVec 17) (zero : Bool) : State :=
  s.issue i { reads := [a], slotA := [a], point := s.warp.hints.yp } false false fun s iss os =>
    let v (l : Nat) : Val := laneOf (os.getD 0 default).lanes l
    let s := s.modFocus fun w => w.setPcs iss.act fun l =>
      if !(v l).psn && ((v l).bits == 0#32) == zero then branchTarget iss.pc o else iss.pc + 4#64
    match distinct ((lanesOf iss.act).filterMap fun l => if (v l).psn then some (v l).bits else none) with
    | [] => s
    | ts => s.flagMine ts
/-- BZ (R311). -/
def execBz (a : BitVec 8) (o : BitVec 17) (s : State) : Out := .next (s.branchOn (.bz a o) a o true)
/-- BNZ (R311). -/
def execBnz (a : BitVec 8) (o : BitVec 17) (s : State) : Out := .next (s.branchOn (.bnz a o) a o false)

/-- An indirect branch (R312); `pop` for RET: a poisoned or misaligned target falls through and flags the region. -/
def State.branchTo (s : State) (i : Instr) (a : Code) (pop : Bool) : State :=
  s.issue i { reads := pairCodes a, slotA := pairCodes a, point := s.warp.hints.yp } false false fun s iss os =>
    let ws (l : Nat) : List Val := laneSrcs os l
    let target (l : Nat) : DWord := wordsVal (ws l)
    let skewed (l : Nat) : Bool := (firstPoison (ws l)).isNone && (target l).toNat % 4 != 0
    let bad := maskOf fun l => iss.act.has l && skewed l
    let r := if bad = 0#32 then (s, 0#32) else s.mkToken s.myTag .align (s.here bad iss.pc)
    let next (l : Nat) : DWord := if (firstPoison (ws l)).isSome || skewed l then iss.pc + 4#64 else target l
    let s := r.1.modFocus fun w =>
      { w.setPcs iss.act next with retStack := if pop then w.retStack.drop 1 else w.retStack }
    match distinct ((lanesOf iss.act).filterMap fun l => match firstPoison (ws l) with
      | some t => some t
      | none => if skewed l then some r.2 else none) with
    | [] => s
    | ts => s.flagMine ts
/-- BRX (R312). -/
def execBrx (a : BitVec 8) (s : State) : Out := .next (s.branchTo (.brx a) a false)
/-- RET (R312): it also pops the return stack (R314), which a deschedule point has emptied. -/
def execRet (a : BitVec 8) (s : State) : Out := .next (s.branchTo (.ret a) a true)
/-- CALL (R313, R314). -/
def execCall (d : BitVec 8) (im : BitVec 17) (s : State) : Out :=
  .next (s.issue (.call d im) { reads := [], dsts := pairCodes d, point := s.warp.hints.yp } false false fun s iss _ =>
    let ret := iss.pc + 4#64
    let s := s.deliver iss.act iss.pc (pairCodes d) [splat (Val.clean (lowWord ret)), splat (Val.clean (highWord ret))] [.u, .u]
    s.modFocus fun w => { w.setPcs iss.act fun _ => branchTarget iss.pc im with retStack := (ret :: w.retStack).take 4 })

/-- The lanes that will have exited. -/
def Warp.exitMask (w : Warp) (act : Mask) : Mask := w.exited ||| act
/-- An EXIT of every live lane that must first commit (R387). -/
def State.exitCommits (s : State) : Bool :=
  s.warp.exitMask s.warp.nextAct == fullMask && (s.warp.region.flag || !(s.rackOf s.warp.ref).isEmpty)
/-- EXIT (R315, R387). -/
def execExit (s : State) : Out :=
  let commits := s.exitCommits
  .next (s.issue .exit { reads := [], point := true } false (commits && s.commitStall) fun s iss _ =>
    if s.warp.exitMask iss.act = fullMask then
      if commits then
        if s.myLaunch.paired then s.commitPBegin .exit iss true
        else
          let r := s.warp.region
          ((s.commitX iss.pc).exitRecord r).endWarp
      else (s.modRegion fun r => if r.opened then r.close else r).endWarp
    else
      let w := s.warp
      (s.modFocus fun w => { w with exited := w.exitMask iss.act }).barExit w)
/-- YIELD (R315). -/
def execYield (s : State) : Out := .next (s.issue .yield { reads := [], point := true } false false fun s _ _ => s)

/-- The break record (R316). -/
def State.breakRecord (s : State) (c : BitVec 16) (act : Mask) (pc : DWord) : List Byte :=
  let rank := rankOf s.myLaunch.pkt s.myWg
  [0x10#8, 0#8] ++ natLE 2 c.toNat ++ natLE 4 (hwlocOf s.myWg.core s.warp.quad).toNat ++ natLE 8 pc.toNat ++ natLE 4 act.toNat
    ++ natLE 4 (s.warp.ref.warp % 32 + rank % 16 * 32) ++ natLE 8 (s.ctr s.myDie)
/-- BRK (R316). -/
def execBrk (c : BitVec 16) (s : State) : Out :=
  .next (s.issue (.brk c) { reads := [] } false false fun s iss _ => s.pushRecord s.myTag (s.breakRecord c iss.act iss.pc))

/-- SIGNAL (R317): a release at system scope, then an addition to an event counter of the context. What it releases is applied
on every die in its step (log 19). In a paired launch it is suppressed (R389). -/
def execSignal (a : BitVec 8) (n : BitVec 9) (s : State) : Out :=
  .next (s.issue (.signal a n) { reads := [a], slotA := [a] } s.myLaunch.paired
      (s.warp.acquiring || !s.released s.warp.ref true) fun s iss os =>
    let v := laneOf (os.getD 0 default).lanes iss.act.lowest
    let s := s.modMem DevMem.sync
    if v.psn then s.flagMine [v.bits]
    else s.countEvent s.myTag n.toNat fun x => x + v.bits)

/-- CLOCK (R318): the cycle counter of the die. -/
def execClock (d : BitVec 8) (s : State) : Out :=
  .next (s.issue (.clock d) { reads := [], dsts := pairCodes d } false false fun s iss _ =>
    let t := BitVec.ofNat 64 (s.ctr s.myDie)
    s.deliver iss.act iss.pc (pairCodes d) [splat (Val.clean (lowWord t)), splat (Val.clean (highWord t))] [.u, .u])

end Sys2Proof.Machine
end

