-- ==== Sys2Proof/Machine/Tags.lean ====
section
/-!
DEFINITION. Completion tags (R243): TWAIT, TFIRST and TACK (R252 to R254), and stash mappings: SMAP, SUNMAP and SFLUSH (R230 to
R234, R206) with SMAP_EXECUTE and STASH_LINE_FILL.
-/
namespace Sys2Proof.Machine
open Sys2Proof

/-! ## Tags -/

/-- An idle tag. -/
def TagSt.idle : TagSt := { state := 0, psn := false, causes := 0#32 }
/-- Whether an absolute tag number lies in the workgroup's run (R243). -/
def Wg.hasTag (g : Wg) (t : Nat) : Bool := decide (g.tagBase ≤ t) && decide (t < g.tagBase + g.tags.length)
/-- A tag of the run by absolute number. -/
def Wg.tagAt (g : Wg) (t : Nat) : TagSt := if g.tagBase ≤ t then g.tags.getD (t - g.tagBase) TagSt.idle else TagSt.idle
/-- Set a tag of the run. -/
def State.setTag (s : State) (wg t : Nat) (x : TagSt) : State :=
  s.modWg wg fun g => if g.tagBase ≤ t then { g with tags := updAt g.tags (t - g.tagBase) fun _ => x } else g
/-- The tag becomes BUSY, its poison bit and causes cleared. -/
def State.tagBusy (s : State) (wg t : Nat) : State := s.setTag wg t { state := 1, psn := false, causes := 0#32 }
/-- Whether the issuing warp's tag is BUSY. -/
def State.myTagBusy (s : State) (t : Nat) : Bool := (s.myWg.tagAt t).state == 1

/-- The absolute tag numbers of a mask. -/
def tagsOf (m : DWord) : List Nat := (List.range 64).filter fun t => m.getLsbD t
/-- Whether a wait on a mask is satisfied (R253). -/
def Wg.maskDone (g : Wg) (any : Bool) (m : DWord) : Bool :=
  let ts := tagsOf m
  if any then ts.isEmpty || ts.any fun t => (g.tagAt t).state != 1 else ts.all fun t => (g.tagAt t).state != 1
/-- The tag report (R253). -/
def Wg.report (g : Wg) (m : DWord) : Word :=
  let ds := (tagsOf m).filter fun t => (g.tagAt t).state == 2
  match ds with
  | [] => 64#32
  | t :: _ => BitVec.ofNat 32 (ds.length * 256 + (if (g.tagAt t).psn then 128 else 0) + t)
/-- The cause codes of the DONE tags of a mask whose poison bit is set. -/
def Wg.reportCauses (g : Wg) (m : DWord) : List Nat :=
  ((tagsOf m).filter fun t => (g.tagAt t).state == 2 && (g.tagAt t).psn).flatMap fun t =>
    (List.range 32).filter fun n => (g.tagAt t).causes.getLsbD n
/-- The flag event of a report: a tag with PSN set, with its causes (R253). Its token is the first that such a tag carries (R206); FIRST keeps
its value where none does. -/
def State.reportFlag (s : State) (m : DWord) : State :=
  let g := s.myWg
  let bad := (tagsOf m).filter fun t => (g.tagAt t).state == 2 && (g.tagAt t).psn
  if bad.isEmpty then s
  else s.flagEvent s.myTag s.warp.ref (g.reportCauses m) (bad.findSome? fun t => (g.tagAt t).tok)

/-- The TWAIT of the issuing warp ends: its report arrives. A report is an acquire at device scope (R272). -/
def State.twaitEnd (s : State) (m : DWord) : State :=
  let v := s.myWg.report m
  let s := (s.reportFlag m).modFocus fun w => { w with wait := .none }
  match s.warp.pend.getLast? with
  | none => s
  | some p => s.arrive { p with words := [splat (Val.clean v)] } p.pc 4
/-- Every TWAIT of a workgroup that its tags now satisfy ends (R253). -/
def State.twaitsEnd (s : State) (wg : Nat) : State :=
  ((s.warpsOf wg).map Warp.ref).foldl (fun s r => match s.getWarp r with
    | none => s
    | some w => match w.wait with
      | .twait any m _ => if ((s.wgOf wg).getD default).maskDone any m then s.asWarp r fun s => s.twaitEnd m else s
      | _ => s) s
/-- A tag reaches DONE with what its operation met and the token it carries, if any; the waits it satisfies end (R206, R243, R253). -/
def State.tagDone (s : State) (wg t : Nat) (psn : Bool) (causes : DWord) (tok : Option Word := none) : State :=
  (s.setTag wg t { state := 2, psn := psn, causes := causes.setWidth 32, tok := tok }).twaitsEnd wg
/-- The bit of a cause code. -/
def causeBit (c : Nat) : DWord := 1#64 <<< c

/-! ## TWAIT, TFIRST and TACK -/

/-- The mask of the lowest active lane, or its token: the first poisoned word (R252). -/
def maskVal (act : Mask) (os : List Opd) : Word ⊕ DWord :=
  let vs := laneSrcs os act.lowest
  match firstPoison vs with
  | some t => .inl t
  | none => .inr (wordsVal vs)
/-- A clean mask names a tag outside the run (R252, R415). -/
def State.badMask (s : State) (a : Code) : Bool :=
  match s.peeks (pairCodes a) s.warp.nextAct.lowest with
  | some [lo, hi] => (tagsOf (joinWords lo hi)).any fun t => !s.myWg.hasTag t
  | _ => false

/-- TWAIT (R253): `any` for TWAIT.ANY. -/
def State.twait (s : State) (i : Instr) (d a : Code) (any : Bool) : State :=
  s.issue i { reads := pairCodes a, slotA := pairCodes a, dsts := [d], point := true } (s.badMask a) false fun s iss os =>
    match maskVal iss.act os with
    | .inl t => (s.flagMine [t]).deliver iss.act iss.pc [d] [splat (Val.poison t)] [.u]
    | .inr m =>
      if s.myWg.maskDone any m then
        (s.reportFlag m).deliver iss.act iss.pc [d] [splat (Val.clean (s.myWg.report m))] [nomOther os]
      else
        let id := s.nextId
        let s := { s with nextId := id + 1 }.awaitResult
          { id := id, dsts := [d], words := [splat Val.zero], mask := iss.act, left := iss.act, shapes := [nomOther os], pc := iss.pc, faults := [], flags := false
            acq := false, wideAcq := false, dropped := false }
        s.modFocus fun w => w.waiting i iss.act (.twait any m d)
/-- TWAIT.ALL. -/
def execTwaitAll (d a : BitVec 8) (s : State) : Out := .next (s.twait (.twaitAll d a) d a false)
/-- TWAIT.ANY. -/
def execTwaitAny (d a : BitVec 8) (s : State) : Out := .next (s.twait (.twaitAny d a) d a true)
/-- TFIRST (R253): it never waits. -/
def execTfirst (d a : BitVec 8) (s : State) : Out :=
  .next (s.issue (.tfirst d a) { reads := pairCodes a, slotA := pairCodes a, dsts := [d] } (s.badMask a) false fun s iss os =>
    match maskVal iss.act os with
    | .inl t => (s.flagMine [t]).deliver iss.act iss.pc [d] [splat (Val.poison t)] [.u]
    | .inr m => (s.reportFlag m).deliver iss.act iss.pc [d] [splat (Val.clean (s.myWg.report m))] [nomOther os])
/-- TACK (R254). -/
def execTack (a : BitVec 8) (s : State) : Out :=
  .next (s.issue (.tack a) { reads := pairCodes a, slotA := pairCodes a } (s.badMask a) false fun s iss os =>
    match maskVal iss.act os with
    | .inl t => s.flagMine [t]
    | .inr m =>
      let wg := s.warp.ref.wg
      (tagsOf m).foldl (fun s t => if (s.myWg.tagAt t).state = 2 then s.setTag wg t TagSt.idle else s) s)

/-! ## SMAP, SUNMAP and SFLUSH -/

/-- The stash bytes of the issuing workgroup. -/
def State.stashSize (s : State) : Nat := s.myLaunch.krec.stashk * 65536
/-- The register values of an SMAP break R231: global offset, stash offset, length, entry and the fourth word. -/
def smapBad (size g so len e z : Nat) : Bool :=
  g % 4096 != 0 || so % 4096 != 0 || len == 0 || len % 4096 != 0 || decide (size < so + len) || decide (32 ≤ e) || z != 0
/-- The values that SMAP takes from the lowest active lane, when every one is clean. -/
def smapVals : List Word → Option (Nat × Nat × Nat × Nat × Nat)
  | [lo, hi, a, b, c, d] => some ((joinWords lo hi).toNat, a.toNat, b.toNat, c.toNat, d.toNat)
  | _ => none
/-- SMAP (R230, R231). -/
def execSmap (r a : BitVec 8) (t : BitVec 6) (m : BitVec 3) (s : State) : Out :=
  let cs := pairCodes r ++ quadCodes a
  let bad := match (s.peeks cs s.warp.nextAct.lowest).bind smapVals with
    | some (g, so, len, e, z) => smapBad s.stashSize g so len e z
    | none => false
  .next (s.issue (.smap r a t m) { reads := cs, slotA := pairCodes r, slotB := quadCodes a }
      (!s.myWg.hasTag t.toNat || s.myLaunch.paired || bad) (s.warp.acquiring || s.myTagBusy t.toNat) fun s iss os =>
    let wg := s.warp.ref.wg
    let s := s.tagBusy wg t.toNat
    let vs := laneSrcs os iss.act.lowest
    match firstPoison vs, smapVals (vs.map Val.bits) with
    | some tok, _ => (s.flagMine [tok]).tagDone wg t.toNat true (causeBit (tokenCause tok))
    | none, none => s
    | none, some (g, so, len, e, _) =>
      let job : SmapJob :=
        { id := s.nextId, wg := wg, warp := s.warp.ref, pc := iss.pc, entry := e, gbase := g, soff := so, len := len
          pre := m == 1#3, tag := t.toNat, registered := false }
      { s with nextId := s.nextId + 1, smaps := s.smaps ++ [job] })

/-- Whether an entry maps physical 4 KiB page `p`. -/
def SmapEntry.maps (m : SmapEntry) (p : Nat) : Bool :=
  m.valid && m.pages.contains p
/-- Whether a range of a saved workgroup, which stays reserved, leads to physical 4 KiB page `p` as it translates now, or did so when it was
withdrawn (R210; log 62). -/
def State.reserves (s : State) (g : Wg) (p : Nat) : Bool :=
  g.smap.any fun e => e.maps p || (e.valid && (List.range (e.len / 4096)).any fun k =>
    match s.walk (dieOf g.core) g.tag 0 (BitVec.ofNat 64 (e.gbase + 4096 * k)) with
    | .leaf t => t.frame / 4096 + (e.gbase + 4096 * k) % 65536 / 4096 == p
    | .fault _ => false)
/-- Whether physical 4 KiB page `p` is mapped by a workgroup of the device, resident or saved, other than `but` (R206, R210). -/
def State.pageMapped (s : State) (p : Nat) (but : Option Nat := none) : Bool :=
  s.wgs.any fun g => !g.ended && some g.id != but && (if g.saved then s.reserves g p else g.smap.any fun e => e.maps p)
/-- The pages of a range, each translated or with its fault, in increasing offset. -/
def State.rangePages (core die tag : Nat) : Nat → Nat → State → List (Nat × Option Nat × Option Cause) →
    State × List (Nat × Option Nat × Option Cause)
  | 0, _, s, acc => (s, acc.reverse)
  | n + 1, off, s, acc =>
    let r := s.lookup (some core) die tag 0 (BitVec.ofNat 64 off) false
    rangePages core die tag n (off + 4096) r.1 ((off, match r.2 with
      | .leaf t => (some ((t.frame + off % 65536) / 4096), none)
      | .fault c => (none, some c)) :: acc)
/-- The end of a refused SMAP; its tag carries the token of a translation fault (R206). -/
def State.smapRefuse (s : State) (j : SmapJob) (code : Nat) (tok : Option Word := none) : State :=
  { s with smaps := s.smaps.filter fun x => x.id != j.id }.tagDone j.wg j.tag true (causeBit code) tok
/-- The end of an SMAP that stands. -/
def State.smapAccept (s : State) (j : SmapJob) : State :=
  { s with smaps := s.smaps.filter fun x => x.id != j.id }.tagDone j.wg j.tag false 0#64
/-- Whether two stash ranges overlap. -/
def overlaps (a n b k : Nat) : Bool := decide (a < b + k) && decide (b < a + n)
/-- The lines of an entry that are ABSENT. -/
def SmapEntry.absent (e : SmapEntry) : List Nat :=
  (List.range (e.len / 128)).filter fun l => !(e.lines.any fun x => x.1 == l)

/-- Whether an SMAP is the oldest on its entry, whose workgroup is resident. -/
def State.smapTurn (s : State) (j : SmapJob) : Bool :=
  !((s.wgOf j.wg).getD default).saved && !(s.smaps.any fun k => k.wg == j.wg && k.entry == j.entry && decide (k.id < j.id))
/-- SMAP_EXECUTE (R231, R206): it registers or refuses; a prefilled mapping completes in a second step, once filled. -/
def execSmapExecute (job : Nat) (s : State) : Out :=
  .next (match s.smaps.find? fun j => j.id == job with
    | none => s
    | some j =>
      if !s.smapTurn j then s
      else
        let g := (s.wgOf j.wg).getD default
        let e := g.smap.getD j.entry default
        if j.registered then
          -- an entry that an invalidation has withdrawn meanwhile fills no more (log 62)
          if !e.valid || e.absent.isEmpty then s.smapAccept j else s
        else if e.valid then
          if e.gbase = j.gbase ∧ e.soff = j.soff ∧ e.len = j.len ∧ e.pre = j.pre then s.smapAccept j else s.smapRefuse j 3
        else if g.smap.any fun x => x.valid && overlaps x.soff x.len j.soff j.len then s.smapRefuse j 3
        else
          let r := State.rangePages g.core (dieOf g.core) g.tag (j.len / 4096) j.gbase s []
          let pages := r.2.filterMap fun p => p.2.1
          if pages.any fun p => r.1.pageMapped p then r.1.smapRefuse j 3
          else match r.2.find? fun p => p.2.2.isSome with
            | some (off, _, some c) =>
              let t := r.1.faultToken g.tag 0 c (BitVec.ofNat 64 off) 0xFFF8#16 (r.1.engineOrigin j.wg j.pc)
              t.1.smapRefuse j c.code (some t.2)
            | _ =>
              -- every write already in a view is ordered before the registration at its home
              let s := ((r.1.modMem DevMem.sync).dropL2 fun l => pages.contains (l / 32)).modWg j.wg fun g => { g with smap := updAt g.smap j.entry fun _ =>
                { valid := true, gbase := j.gbase, soff := j.soff, len := j.len, pre := j.pre, pages := pages, lines := [] } }
              if j.pre then { s with smaps := s.smaps.map fun x => if x.id = job then { x with registered := true } else x }
              else s.smapAccept j)

/-- STASH_LINE_FILL (R207). -/
def execStashLineFill (wg entry line : Nat) (s : State) : Out :=
  .next (match (s.wgOf wg).bind fun g => g.smap[entry]? with
    | some e =>
      if e.valid && e.absent.contains line then
        (s.readyLine ((s.wgOf wg).getD default).tag (s.engineOrigin wg 0#64) wg entry line).1.modWg wg fun g =>
          { g with refill := g.refill.filter fun e => !((g.smap.getD e default).absent.isEmpty) }
      else s
    | none => s)

/-- An SMAP of the issuing workgroup is not complete, on the entry or on any (R232). -/
def State.smapPending (s : State) (all : Bool) (e : Nat) : Bool :=
  s.smaps.any fun j => j.wg == s.warp.ref.wg && (all || j.entry == e)
/-- The entries that SUNMAP and SFLUSH act on. -/
def State.mapEntries (s : State) (all : Bool) (e : Nat) : List Nat :=
  let m := s.myWg.smap
  (if all then List.range m.length else [e]).filter fun k => (m.getD k default).valid
/-- The issuing warp's own earlier stores to the pages of an entry leave before its write-back, which is a store of the warp (R234). -/
def State.drainMapped (s : State) (e : Nat) : State :=
  let w := s.warp.ref
  let pages := (s.myWg.smap.getD e default).pages
  s.drainWhere (s.coreOf w.wg) fun x => x.warp == w && (match x.act with
    | .mem a => pages.contains (a.addr / 4096)
    | _ => false)
/-- SUNMAP (R232). -/
def execSunmap (l : BitVec 1) (e : BitVec 5) (s : State) : Out :=
  .next (s.issue (.sunmap l e) { reads := [] } false (s.warp.acquiring || s.smapPending (l == 1#1) e.toNat) fun s _ _ =>
    (s.mapEntries (l == 1#1) e.toNat).foldl (fun s k => (s.drainMapped k).unmap s.warp.ref.wg k) s)
/-- SFLUSH (R232). -/
def execSflush (l : BitVec 1) (e : BitVec 5) (s : State) : Out :=
  .next (s.issue (.sflush l e) { reads := [] } false (s.warp.acquiring || s.smapPending (l == 1#1) e.toNat) fun s _ _ =>
    (s.mapEntries (l == 1#1) e.toNat).foldl (fun s k => (s.drainMapped k).writeBack s.warp.ref.wg k) s)

end Sys2Proof.Machine
end

