-- ==== Sys2Proof/Machine/Copy.lean ====
section
/-!
DEFINITION. Asynchronous copies (R237 to R251): XCOPY in its five directions, XLOADW (R181) and RFENCE, with the events that take
a copy's record, move one destination sector and complete its tag.
-/
namespace Sys2Proof.Machine
open Sys2Proof

/-! ## The shape record (R237) -/

/-- The fields of a shape record. -/
structure CopyRec where
  base : Nat
  place : BitVec 16
  efmt : Nat
  rank : Nat
  flags : Nat
  mcast : Nat
  dims : List Nat
  spitch : Nat
  strides : List Nat
  boxes : List Nat
  dnode : Nat
  dchan : Nat
  metaOff : Nat
  coord3 : Int
  coord4 : Int
  dsoff : Nat
  /-- Whether every reserved byte is 0. -/
  clean : Bool
  deriving DecidableEq, Repr, Inhabited

/-- Whether `n` bytes of a byte string are 0. -/
def zeroAt (bs : List Byte) (o n : Nat) : Bool := ((bs.drop o).take n).all (· == 0#8)

/-- Read a record (R237). -/
def parseRec (bs : List Byte) : CopyRec :=
  { base := numAt bs 0 8, place := BitVec.ofNat 16 (numAt bs 8 2), efmt := numAt bs 0x0A 1, rank := numAt bs 0x0B 1
    flags := numAt bs 0x0C 2, mcast := numAt bs 0x0E 2
    dims := (List.range 5).map fun d => numAt bs (0x10 + 4 * d) 4
    spitch := numAt bs 0x24 4
    strides := 0 :: (List.range 4).map fun d => numAt bs (0x28 + 8 * d) 8
    boxes := (List.range 5).map fun d => numAt bs (0x48 + 2 * d) 2
    dnode := numAt bs 0x52 2, dchan := numAt bs 0x54 1, metaOff := numAt bs 0x58 8
    coord3 := intOf 32 true (numAt bs 0x60 4), coord4 := intOf 32 true (numAt bs 0x64 4), dsoff := numAt bs 0x68 4
    clean := zeroAt bs 0x55 3 && zeroAt bs 0x6C 84 }

/-- The element width in bits of a format (R237). -/
def elemBits (f : Nat) : Nat := if f ≤ 2 then 32 else if f = 3 ∨ f = 4 ∨ f = 10 ∨ f = 11 then 16 else if f = 7 ∨ f = 9 then 4 else 8
/-- OOBP, EXPAND and RCHAN. -/
def CopyRec.oobp (r : CopyRec) : Bool := r.flags % 2 == 1
def CopyRec.expand (r : CopyRec) : Bool := r.flags / 2 % 2 == 1
def CopyRec.rchan (r : CopyRec) : Bool := r.flags / 4 % 2 == 1
/-- The row size in bytes. -/
def CopyRec.row (r : CopyRec) : Nat := r.boxes.getD 0 0 * elemBits r.efmt / 8
/-- The stash bytes from one box row to the next (R237, R238). -/
def CopyRec.pitch (r : CopyRec) : Nat := if r.spitch = 0 then r.row else r.spitch
/-- A box extent, 1 at and above RANK (R238). -/
def CopyRec.box (r : CopyRec) (d : Nat) : Nat := if d < r.rank then r.boxes.getD d 1 else 1
/-- The rows of the box. -/
def CopyRec.rows (r : CopyRec) : Nat := r.box 1 * r.box 2 * r.box 3 * r.box 4
/-- The 16-byte chunks of a row, and of the box. -/
def CopyRec.perRow (r : CopyRec) : Nat := r.row / 16
def CopyRec.chunks (r : CopyRec) : Nat := r.rows * r.perRow

/-- The record keeps R237 to R239 and R244 for a copy of direction `dir` with coordinate c0. -/
def CopyRec.ok (r : CopyRec) (own dir : Nat) (xloadw : Bool) (c0 : Int) : Bool :=
  let dim (f : Nat → Bool → Bool) : Bool := (List.range 5).all fun d => f d (decide (d < r.rank))
  r.clean && r.place.toNat % 8 != 1 && r.base % 16 == 0 && decide (r.efmt ≤ 11) && decide (1 ≤ r.rank) && decide (r.rank ≤ 5)
    && decide (r.flags < 8)
    && dim (fun d b => if b then r.dims.getD d 0 != 0 else r.dims.getD d 0 == 0)
    && dim (fun d b => if b then r.strides.getD d 0 % 16 == 0 else r.strides.getD d 0 == 0)
    && dim (fun d b => if b then decide (1 ≤ r.boxes.getD d 0) && decide (r.boxes.getD d 0 ≤ 256) else r.boxes.getD d 0 == 0)
    && r.boxes.getD 0 0 * elemBits r.efmt % 128 == 0
    && (r.spitch == 0 || (r.spitch % 16 == 0 && decide (r.row ≤ r.spitch)))
    && decide (r.dchan < 16)
    && (dir != 4 || (decide (r.dnode < 4608) && r.dnode != own))
    && (dir != 2 || r.dsoff % 16 == 0)
    && (dir == 2 || c0 * elemBits r.efmt % 128 == 0)
    && (!r.expand || xloadw || ((dir == 0 || dir == 3) && r.boxes.getD 0 0 % 4 == 0 && c0 % 4 == 0 && r.dims.getD 0 0 % 4 == 0))

/-- The coordinates c0 to c4 (R238). -/
def Copy.coords (c : Copy) (r : CopyRec) : List Int :=
  [(c.args.getD 1 0#32).toInt, (c.args.getD 2 0#32).toInt, (c.args.getD 3 0#32).toInt, r.coord3, r.coord4]
/-- cd + bd for d = 1 to 4 of a row (R238). -/
def rowCoords (r : CopyRec) (cs : List Int) (row : Nat) : List Int :=
  let b1 := row % r.box 1
  let b2 := row / r.box 1 % r.box 2
  let b3 := row / (r.box 1 * r.box 2) % r.box 3
  let b4 := row / (r.box 1 * r.box 2 * r.box 3)
  [cs.getD 1 0 + b1, cs.getD 2 0 + b2, cs.getD 3 0 + b3, cs.getD 4 0 + b4]
/-- Whether dimensions 1 and up of a row are in bounds. -/
def rowIn (r : CopyRec) (xs : List Int) : Bool :=
  (List.range 4).all fun k => decide (r.rank ≤ k + 1) ||
    (decide (0 ≤ xs.getD k 0) && decide (xs.getD k 0 < r.dims.getD (k + 1) 0))
/-- The global byte offset of a row's dimension-1-to-4 part. -/
def rowStride (r : CopyRec) (xs : List Int) : Int :=
  (List.range 4).foldl (fun a k => if k + 1 < r.rank then a + xs.getD k 0 * r.strides.getD (k + 1) 0 else a) 0

/-- One 16-byte chunk of the box in traversal order. -/
structure Chunk where
  row : Nat
  /-- Its byte in the row. -/
  at' : Nat
  /-- Its dense position c0 + b0, the in-bounds bits it holds (a prefix), its global offset, and with EXPAND the stored offset
  from BASE of its kept values. -/
  e : Int
  bits : Nat
  off : DWord
  kept : Int
  deriving DecidableEq, Repr, Inhabited

/-- Chunk `i` of the box. In direction 2 nothing is out of bounds. -/
def chunkOf (r : CopyRec) (cs : List Int) (global : Bool) (i : Nat) : Chunk :=
  let w := elemBits r.efmt
  let per := 128 / w
  let row := i / r.perRow
  let at' := i % r.perRow * 16
  let xs := rowCoords r cs row
  let e := cs.getD 0 0 + at' * 8 / w
  let left := (r.dims.getD 0 0 : Int) - e
  let n := if !global then per else if e < 0 ∨ left ≤ 0 ∨ !rowIn r xs then 0 else min per left.toNat
  { row := row, at' := at', e := e, bits := n * w
    off := BitVec.ofInt 64 (r.base + e * w / 8 + rowStride r xs)
    kept := e / 2 * w / 8 + rowStride r xs }

/-! ## Reading source sectors -/

/-- The origin of an access of a copy; an XLOADW's names the sector of its weight slot (R376, R405). -/
def State.copyOrigin (s : State) (c : Copy) : Origin :=
  { s.engineOrigin c.wg c.pc with tile := if c.xloadw then some (c.slot, 4, c.cursor / 2) else none }
/-- The token of a copy for a cause: one for each cause met (R215, R245). -/
def State.copyToken (s : State) (c : Copy) (cause : Cause) (space : Nat) (off : DWord) (place : BitVec 16) (remote : Bool) :
    State × Copy × Word :=
  let o := { s.copyOrigin c with remote := remote }
  let tag := ((s.wgOf c.wg).getD default).tag
  match c.tokens.find? fun t => t.1 == cause.code with
  | some t =>
    (if cause = .pageMiss && !remote then (s.svcReq tag space off { o with addr := some (off, place) }).1 else s, c, t.2)
  | none =>
    let r := if remote then s.mkToken tag cause { o with addr := some (off, place) } else s.faultToken tag space cause off place o
    (r.1, { c with tokens := c.tokens ++ [(cause.code, r.2)] }, r.2)
/-- The cause of a token joins the copy's report. -/
def Copy.meet (c : Copy) (t : Word) : Copy := { c with psn := true, causes := c.causes ||| causeBit (tokenCause t) }
/-- Eight poisoned words. -/
def poisonSector (t : Word) : List Val := List.replicate 8 (Val.poison t)
/-- The words of 32 bytes. -/
def wordsOf (bs : List Byte) : List Val := (List.range 8).map fun i => Val.clean (BitVec.ofNat 32 (numAt bs (4 * i) 4))
/-- Keep a source sector that has been read. -/
def Copy.keep (c : Copy) (off : DWord) (vs : List Val) : Copy := { c with fetched := c.fetched ++ [(off, vs)] }

/-- Ask another node or the host for a source sector. -/
def State.copyAsk (s : State) (c : Copy) (node : Nat) (raw off : DWord) (place : BitVec 16) : State × Copy :=
  let g := (s.wgOf c.wg).getD default
  let die := dieOf g.core
  let r : Request :=
    { id := s.nextId, warp := c.warp, res := none, copy := some c.id, queue := none, lanes := [], node := node, off := off, raw := raw, place := place
      size := 32, sub := none, atom := none, issued := s.ctr die, die := die, tag := g.tag, pc := c.pc, heldSeq := 0 }
  let s := { s with nextId := s.nextId + 1 }.modFab fun f => { f with requests := f.requests ++ [r] }
  let s := if 10000 ≤ node then s.send (.hostRead (s.ctx g.tag).func (node - 10000) r.id off.toNat 32)
    else s.send (.request node { src := s.fabric.node, chan := c.chan, reqId := r.id, index := 0#32, off := off, size := 32, atom := none })
  (s, { c with asked := c.asked ++ [(r.id, raw)] })

/-- Make the global source sector at a raw offset available, or ask for it (R245, R248, R280). -/
def State.fetchGlobal (s : State) (c : Copy) (place : BitVec 16) (raw : DWord) : State × Copy :=
  if c.fetched.any fun f => f.1 == raw then (s, c)
  else if c.asked.any fun a => a.2 == raw then (s, c)
  else
    let g := (s.wgOf c.wg).getD default
    let core := g.core
    let die := dieOf core
    let s := s.ordered c.warp
    let fail (s : State) (cause : Cause) (sp : Nat) (off : DWord) : State × Copy :=
      let t := s.copyToken c cause sp off place false
      (t.1, t.2.1.keep raw (poisonSector t.2.2))
    match resolvePlace s.fabric.node place raw with
    | .reserved => fail s .bounds 0 raw
    | .node n off => if s.ownsSend g.tag n c.chan then s.copyAsk c n raw off place else fail s .protection 0 raw
    | .own sp off =>
      let r := s.lookup (some core) die g.tag sp off false
      match r.2 with
      | .fault k => fail r.1 k sp off
      | .leaf t =>
        let pa := t.frame + off.toNat % 65536
        if sp = 2 then r.1.copyAsk c (hostNode (r.1.portOf g.tag)) raw (BitVec.ofNat 64 pa) place
        else
          let o := { s.copyOrigin c with addr := some (raw, place) }
          -- the engine sees every store that has left a queue of the device (R271)
          let a := (r.1.modMem fun d => d.catchUp die pa).access die g.tag pa o t.mt
          let vs := match a.2 <|> a.1.tokenOf die pa with
            | some t => poisonSector t
            | none => wordsOf (a.1.bytesAt die pa 32)
          (a.1, c.keep raw vs)
/-- Make the stash source sector at an offset of the own stash available. -/
def State.fetchStash (s : State) (c : Copy) (off : Nat) : State × Copy :=
  let key := BitVec.ofNat 64 off
  if c.fetched.any fun f => f.1 == key then (s, c)
  else
    let q := (s.ordered c.warp).readStash ((s.wgOf c.wg).getD default).tag c.wg off (s.engineOrigin c.wg c.pc)
    let s := q.1
    let m := ((s.wgOf c.wg).getD default).stash
    (s, c.keep key (match q.2 <|> m.token off with
      | some t => poisonSector t
      | none => wordsOf (m.bytes off 32)))

/-- Bytes at an offset of the sectors that a copy has read, or the token of a poisoned one. None while one is awaited. -/
def Copy.bytesAt (c : Copy) (a : DWord) (n : Nat) : Option (Word ⊕ List Byte) :=
  let k := a.toNat % 32
  match c.fetched.find? fun f => f.1 == BitVec.ofNat 64 (a.toNat - k) with
  | none => none
  | some f => some (match firstPoison f.2 with
    | some t => .inl t
    | none => .inr (((f.2.flatMap fun v => natLE 4 v.bits.toNat).drop k).take n))

/-! ## Chunks as they are read -/

/-- What a chunk delivers: 16 bytes, or a token, with its in-bounds bits. -/
inductive ChunkRead where
  | wait
  | bytes (bs : List Byte)
  | token (t : Word)
  deriving DecidableEq, Repr, Inhabited

/-- The bytes of a chunk with those past its in-bounds bits zero. -/
def clipBits (bits : Nat) (bs : List Byte) : List Byte :=
  (List.range 16).map fun i =>
    if 8 * i + 8 ≤ bits then bs.getD i 0#8 else if bits ≤ 8 * i then 0#8 else bs.getD i 0#8 &&& 0x0F#8

/-- The metadata nibble `n` of an expanding copy (R239). -/
def Copy.nibble (c : Copy) (m : Nat) (n : Nat) : Option (Word ⊕ Nat) :=
  match c.bytesAt (BitVec.ofNat 64 (m + n / 2)) 1 with
  | none => none
  | some (.inl t) => some (.inl t)
  | some (.inr bs) => some (.inr ((bs.getD 0 0#8).toNat / (if n % 2 = 0 then 1 else 16) % 16))

/-- The dense elements of one group from its kept values and its nibble (R212), or none where the nibble is bad. -/
def expandGroup (v0 v1 nib : Nat) : Option (List Nat) :=
  let i := nib % 4
  let j := nib / 4
  if i < j then some ((List.range 4).map fun k => if k = i then v0 else if k = j then v1 else 0) else none
/-- Pack elements of `w` bits into bytes. -/
def packElems (w : Nat) (vs : List Nat) (n : Nat) : List Byte := natLE n (vs.foldr (fun v x => v % 2 ^ w + 2 ^ w * x) 0)

/-- Read a chunk of a copy with EXPAND (R212, R239). -/
def State.readExpanded (s : State) (c : Copy) (r : CopyRec) (k : Chunk) : State × Copy × ChunkRead :=
  let w := elemBits r.efmt
  let groups := 32 / w
  let src := BitVec.ofInt 64 (r.base + k.kept)
  let n0 := (k.kept * 8 / (2 * w)).toNat
  let align (x : Nat) : DWord := BitVec.ofNat 64 (x / 32 * 32)
  -- the groups in bounds, which are the first; the others read nothing (R239)
  let groups := (groups * k.bits + 127) / 128
  let a := s.fetchGlobal c r.place (align src.toNat)
  let b := a.1.fetchGlobal a.2 r.place (align (r.metaOff + n0 / 2))
  let d := b.1.fetchGlobal b.2 r.place (align (r.metaOff + (n0 + groups - 1) / 2))
  let c := d.2
  match c.bytesAt src 8 with
  | none => (d.1, c, .wait)
  | some (.inl t) => (d.1, c, .token t)
  | some (.inr bs) =>
    let x := leNat bs
    let nibs := (List.range groups).map fun g => c.nibble r.metaOff (n0 + g)
    if nibs.any Option.isNone then (d.1, c, .wait)
    else match nibs.findSome? fun n => match n with
      | some (.inl t) => some t
      | _ => none with
    | some t => (d.1, c, .token t)
    | none =>
      let dense := (List.range groups).map fun g => match nibs.getD g none with
        | some (.inr n) => expandGroup (x / 2 ^ (2 * g * w) % 2 ^ w) (x / 2 ^ ((2 * g + 1) * w) % 2 ^ w) n
        | _ => none
      if dense.any Option.isNone then
        let t := d.1.copyToken c .illegalOperand 0 src r.place false
        (t.1, t.2.1, .token t.2.2)
      else (d.1, c, .bytes (clipBits k.bits (packElems w (dense.flatMap fun o => o.getD [0, 0, 0, 0]) 16)))

/-- Read the source of a chunk, or learn that it is awaited. `src` is the stash offset of the box for a stash source. -/
def State.readChunk (s : State) (c : Copy) (r : CopyRec) (k : Chunk) : State × Copy × ChunkRead :=
  let stash := c.dir = 1 ∨ c.dir = 2 ∨ c.dir = 4
  if k.bits = 0 then (s, c, .bytes (List.replicate 16 0#8))
  else if r.expand && !c.xloadw then s.readExpanded c r k
  else
    let a := if stash then (c.args.getD 0 0#32).toNat + k.row * r.pitch + k.at' else k.off.toNat
    let q := if stash then s.fetchStash c (a / 32 * 32) else s.fetchGlobal c r.place (BitVec.ofNat 64 (a / 32 * 32))
    match q.2.bytesAt (BitVec.ofNat 64 a) 16 with
    | none => (q.1, q.2, .wait)
    | some (.inl t) => (q.1, q.2, .token t)
    | some (.inr bs) => (q.1, q.2, .bytes (clipBits k.bits bs))

/-! ## Destinations -/

/-- Replace a copy. -/
def State.putCopy (s : State) (c : Copy) : State := { s with copies := s.copies.map fun x => if x.id = c.id then c else x }
/-- The workgroups that MCAST selects: those of the cluster coordinate with the ranks of the mask, while they run (R28). -/
def State.mcastOf (s : State) (g : Wg) (mask : Nat) : List Wg :=
  let p := (s.launchOf g.launch).pkt
  s.wgs.filter fun h => h.launch == g.launch && h.cl == g.cl && h.replica == g.replica && !h.ended && mask.testBit (rankOf p h)
/-- Whether MCAST selects a workgroup of the launch (R28, R244). -/
def mcastSome (p : Packet) (mask : Nat) : Bool := (List.range 16).any fun k => decide (k < p.stages * nwgOf p) && mask.testBit k

/-- A chunk as it goes into its sector: its byte in the sector, its in-bounds bits, its bytes or token. -/
structure Placed where
  byte : Nat
  bits : Nat
  bytes : List Byte
  tok : Option Word
  deriving DecidableEq, Repr, Inhabited

/-- The sector write of the chunks of one sector with every byte written (a stash destination). -/
def sectorOf (a : Nat) (ps : List Placed) : SectorWrite :=
  { addr := a, poison := none
    mask := ps.foldl (fun m p => m ||| BitVec.ofNat 32 (0xFFFF * 2 ^ p.byte)) 0#32
    data := (List.range 32).map fun i => ((ps.find? fun p => decide (p.byte ≤ i) && decide (i < p.byte + 16)).map fun p =>
      p.bytes.getD (i - p.byte) 0#8).getD 0#8 }
/-- The sector write of in-bounds bytes only; of a byte half of which is in bounds only that nibble is written, at its home (R245). -/
def sectorIn (a : Nat) (ps : List Placed) : SectorWrite :=
  let inside (i : Nat) : Option (Placed × Nat) := (ps.find? fun p => decide (p.byte ≤ i) && decide (8 * (i - p.byte) < p.bits)).map fun p => (p, i - p.byte)
  let bit (f : Placed × Nat → Bool) (m : Word) (i : Nat) : Word := if (inside i).any f then m ||| (1#32 <<< i) else m
  { addr := a, poison := none
    mask := (List.range 32).foldl (bit fun _ => true) 0#32
    half := (List.range 32).foldl (bit fun x => decide (x.1.bits < 8 * x.2 + 8)) 0#32
    data := (List.range 32).map fun i => ((inside i).map fun x => x.1.bytes.getD x.2 0#8).getD 0#8 }

/-- A copy that moves nothing more: its tag will reach DONE with the given cause (R240, R244). -/
def Copy.stop (c : Copy) (code : Nat) : Copy := { c with finished := true, psn := true, causes := c.causes ||| causeBit code }

/-- The first token of the chunks of a sector. -/
def firstTok (ps : List Placed) : Option Word := ps.findSome? Placed.tok

/-- Write a stash destination sector in each workgroup (R211, R245); `whole` where the copy writes all of its line. A fill that meets a fault
leaves the sector unwritten, and the cause joins the tag (R207, R246). -/
def State.copyToStash (s : State) (c : Copy) (r : CopyRec) (a : Nat) (ps : List Placed) (srcOut whole : Bool) : State × Copy :=
  let g := (s.wgOf c.wg).getD default
  let size := (s.launchOf g.launch).krec.stashk * 65536
  let dests := if c.dir = 0 then [g] else s.mcastOf g r.mcast
  let partly := ps.any fun p => decide (p.bits < 128)
  if srcOut || decide (size ≤ a) then (s, { c with psn := true, causes := c.causes ||| causeBit 3 })
  else
    let q : State × Copy × Option Word :=
      if partly && r.oobp then
        let t := s.copyToken c .bounds 0 (BitVec.ofNat 64 a) r.place false
        (t.1, t.2.1, some t.2.2)
      else (s, c, firstTok ps)
    let w : SectorWrite := match q.2.2 with
      | some t => sectorPoison a t
      | none => sectorOf a ps
    let c := match q.2.2 with
      | some t => q.2.1.meet t
      | none => q.2.1
    dests.foldl (fun (x : State × Copy) h =>
      let y := x.1.stashPut g.tag (x.1.engineOrigin c.wg c.pc) whole h.id w
      (y.1, match y.2 with
        | some t => x.2.meet t
        | none => x.2)) (q.1, c)

/-- Write a sector of the weight slot of an XLOADW (R181). -/
def State.copyToSlot (s : State) (c : Copy) (r : CopyRec) (a : Nat) (ps : List Placed) : State × Copy :=
  let partly := ps.any fun p => decide (p.bits < 128)
  let q : State × Copy × Option Word :=
    if partly && r.oobp then
      let t := s.copyToken c .bounds 0 (BitVec.ofNat 64 a) r.place false
      (t.1, t.2.1, some t.2.2)
    else (s, c, firstTok ps)
  let w : SectorWrite := match q.2.2 with
    | some t => sectorPoison a t
    | none => sectorOf a ps
  (q.1.modWg c.wg fun g => { g with wslot := updAt g.wslot c.slot fun m => m.apply w }, match q.2.2 with
    | some t => q.2.1.meet t
    | none => q.2.1)

/-- Write a global destination sector of direction 1 at raw offset `a` (R245, R272); `whole` where the copy writes all of its line. A fill that
meets a fault leaves the sector unwritten, and the cause joins the tag (R207, R246). -/
def State.copyToGlobal (s : State) (c : Copy) (r : CopyRec) (a : Nat) (ps : List Placed) (srcOut whole : Bool) : State × Copy :=
  let g := (s.wgOf c.wg).getD default
  let live := ps.filter fun p => p.bits != 0
  if live.isEmpty then (s, c)
  else
    let raw := BitVec.ofNat 64 a
    let q : State × Copy × Option Word :=
      if srcOut then
        let t := s.copyToken c .bounds 0 raw r.place false
        (t.1, t.2.1, some t.2.2)
      else (s, c, firstTok live)
    let s := q.1
    let c := match q.2.2 with
      | some t => q.2.1.meet t
      | none => q.2.1
    let o := { s.engineOrigin c.wg c.pc with addr := some (raw, r.place) }
    let fail (s : State) (k : Cause) (sp : Nat) (off : DWord) : State × Copy :=
      (if k = .pageMiss then (s.svcReq g.tag sp off o).1 else s, { c with psn := true, causes := c.causes ||| causeBit k.code })
    match resolvePlace s.fabric.node r.place raw with
    | .reserved => fail s .bounds 0 raw
    | .node n off =>
      -- the manual names no packet for it: it travels and counts as a remote write (log 21)
      if s.ownsSend g.tag n c.chan then
        let i := s.takeIndex n c.chan
        let w : SectorWrite := match q.2.2 with
          | some t => sectorPoison off.toNat t
          | none => sectorIn off.toNat live
        (i.1.sendWrite n { src := s.fabric.node, chan := c.chan, index := i.2, off := off, sectors := [w], atom := none }, c)
      else fail s .protection 0 raw
    | .own sp off =>
      let l := s.lookup (some g.core) (dieOf g.core) g.tag sp off true
      match l.2 with
      | .fault k => fail l.1 k sp off
      | .leaf t =>
        let pa := t.frame + off.toNat % 65536
        if sp = 2 then
          let w := sectorIn pa live
          let port := l.1.portOf g.tag
          let s := l.1.send (.hostWrite (s.ctx g.tag).func port pa (match q.2.2 with
            | some t => (List.range 32).map fun i => (pa + i, (natLE 4 t.toNat).getD i 0#8)
            | none => (List.range 32).filterMap fun i =>
                if w.mask.getLsbD i && !w.half.getLsbD i then some (pa + i, w.data.getD i 0#8) else none) q.2.2.isSome)
          (if q.2.2.isSome then s else (List.range 32).foldl (fun s i =>
            if w.half.getLsbD i then s.send (.hostMerge (s.ctx g.tag).func port (pa + i) (w.data.getD i 0#8)) else s) s, c)
        else
          let die := homeDie pa
          let w : SectorWrite := match q.2.2 with
            | some t => sectorPoison pa t
            | none => sectorIn pa live
          let x := l.1.physPut die g.tag o whole w
          (x.1, match x.2 with
            | some t => c.meet t
            | none => c)

/-! ## Direction 4 -/

/-- The in-bounds byte range of a row in the global tensor, if it has one. -/
def rowSpan (r : CopyRec) (cs : List Int) (row : Nat) : Option (Nat × Nat) :=
  let xs := rowCoords r cs row
  let w := elemBits r.efmt
  let c0 := cs.getD 0 0
  let lo := max 0 c0
  let hi := min (r.dims.getD 0 0 : Int) (c0 + r.boxes.getD 0 0)
  if rowIn r xs && decide (lo < hi) then
    let a := (BitVec.ofInt 64 (r.base + lo * w / 8 + rowStride r xs)).toNat
    some (a, a + ((hi - lo).toNat * w + 7) / 8)
  else none
/-- The write count (R247): the distinct 256-byte blocks that each row's in-bounds bytes touch. -/
def writeCount (r : CopyRec) (cs : List Int) : Nat :=
  (List.range r.rows).foldl (fun n row => match rowSpan r cs row with
    | some (a, b) => n + ((b - 1) / 256 - a / 256 + 1)
    | none => n) 0
/-- The chunks of one block from chunk `i` on: those of its row and its 256-byte destination block. -/
def blockChunks (r : CopyRec) (cs : List Int) (i : Nat) : List Chunk :=
  let k := chunkOf r cs true i
  ((List.range 16).map fun j => i + j).filterMap fun n =>
    let x := chunkOf r cs true n
    if n < r.chunks ∧ x.row = k.row ∧ x.bits ≠ 0 ∧ x.off.toNat / 256 = k.off.toNat / 256 then some x else none
/-- The packet of one block (R247): every sector keeps its own form. -/
def State.blockSectors (size : Nat) (r : CopyRec) : List Chunk → State → Copy → List (Nat × List Placed × Bool) →
    State × Copy × List (Nat × List Placed × Bool)
  | [], s, c, acc => (s, c, acc)
  | k :: ks, s, c, acc =>
    let out := decide (size ≤ (c.args.getD 0 0#32).toNat + k.row * r.pitch + k.at')
    let q := s.readChunk c r k
    let a := k.off.toNat / 32 * 32
    let p : Placed :=
      { byte := k.off.toNat % 32, bits := k.bits
        bytes := (match q.2.2 with
          | .bytes bs => bs
          | _ => [])
        tok := (match q.2.2 with
          | .token t => some t
          | _ => none) }
    blockSectors size r ks q.1 q.2.1 (match acc.find? fun e => e.1 == a with
      | some _ => acc.map fun e => if e.1 = a then (a, e.2.1 ++ [p], e.2.2 || out) else e
      | none => acc ++ [(a, [p], out)])
/-- One write of a direction 4 copy. -/
def State.copyBlock (s : State) (c : Copy) (r : CopyRec) : State :=
  let g := (s.wgOf c.wg).getD default
  let size := (s.launchOf g.launch).krec.stashk * 65536
  let cs := c.coords r
  let k := chunkOf r cs true c.cursor
  if k.bits = 0 then
    s.putCopy { c with cursor := c.cursor + 1, finished := decide (r.chunks ≤ c.cursor + 1) }
  else
    let ks := blockChunks r cs c.cursor
    let q := State.blockSectors size r ks s c []
    let ws := q.2.2.foldl (fun (x : State × Copy × List SectorWrite) e =>
      if e.2.2 then
        let t := x.1.copyToken x.2.1 .bounds 0 (BitVec.ofNat 64 e.1) r.place false
        (t.1, t.2.1.meet t.2.2, x.2.2 ++ [sectorPoison e.1 t.2.2])
      else match firstTok e.2.1 with
        | some t => (x.1, x.2.1.meet t, x.2.2 ++ [sectorPoison e.1 t])
        | none => (x.1, x.2.1, x.2.2 ++ [sectorIn e.1 e.2.1])) (q.1, q.2.1, [])
    let s := ws.1
    let c := ws.2.1
    let next := c.cursor + ks.length
    let pkt : WritePacket :=
      { src := s.fabric.node, chan := c.chan, index := c.idx0 + BitVec.ofNat 32 c.sent, off := k.off, sectors := ws.2.2, atom := none }
    (s.sendWrite r.dnode pkt).putCopy
      { c with cursor := next, sent := c.sent + 1, sectors := c.sectors + ws.2.2.length, finished := decide (r.chunks ≤ next) }

/-! ## The events of a copy -/

/-- An access that the issuing warp made before the copy is not performed yet: an answer of another node or of the host is missing, or a
SPACE 2 write is not observed (R248, R272). -/
def State.copyBehind (s : State) (c : Copy) : Bool :=
  (s.fabric.requests.any fun r => r.warp == c.warp && r.copy.isNone && r.queue.isNone && decide (r.id < c.id))
    || s.svc.observing.any fun o => o.2 == c.warp && decide (o.1 < c.id)
/-- Whether a copy may act: its workgroup is resident, it is not finished and nothing that it must follow is outstanding. -/
def State.copyRuns (s : State) (c : Copy) : Bool := !((s.wgOf c.wg).getD default).saved && !c.finished && !s.copyBehind c
/-- Whether a copy waits for a source sector it has asked for. -/
def State.copyAwaits (s : State) (c : Copy) : Bool := s.fabric.requests.any fun r => r.copy == some c.id

/-- The record of a copy as bytes, from the record cache or memory. A fill of a full cache takes the place of the oldest fill (R240; log 81). -/
def State.takeRecord (s : State) (c : Copy) : State × EngineRead :=
  let g := (s.wgOf c.wg).getD default
  match (s.coreAt g.core).recCache.find? fun e => e.1 == g.tag && e.2.1 == c.recAddr with
  | some e => (s, .bytes e.2.2)
  | none =>
    let r := s.engineBytes (some g.core) (dieOf g.core) g.tag (s.engineOrigin c.wg c.pc) 8 (BitVec.ofNat 64 c.recAddr) 192
    match r.2 with
    | .bytes bs => (r.1.modCore g.core fun k => { k with recCache := ((g.tag, c.recAddr, bs) :: k.recCache).take 32 }, .bytes bs)
    | e => (r.1, e)

/-- COPY_RECORD_FETCH (R240, R244, R247). -/
def execCopyRecordFetch (job : Nat) (s : State) : Out :=
  .next (match s.copies.find? fun c => c.id == job with
    | none => s
    | some c =>
      if !s.copyRuns c || c.record.isSome then s
      else
        let g := (s.wgOf c.wg).getD default
        let q := s.takeRecord c
        match q.2 with
        | .fault k off =>
          let t := q.1.faultToken g.tag 0 k off 0xFFF8#16 (q.1.engineOrigin c.wg c.pc)
          t.1.putCopy (c.stop k.code)
        | .token t => q.1.putCopy (c.stop (tokenCause t))
        | .bytes bs =>
          let s := q.1
          let r := parseRec bs
          let cs := c.coords r
          let c := { c with record := some bs }
          if !r.ok s.fabric.node c.dir c.xloadw (cs.getD 0 0)
              || ((c.dir == 2 || c.dir == 3) && !mcastSome (s.launchOf g.launch).pkt r.mcast) then s.putCopy (c.stop 8)
          else if c.xloadw && decide (32768 < r.rows * r.row) then
            let t := s.copyToken c .bounds 0 (BitVec.ofNat 64 c.recAddr) r.place false
            t.1.putCopy (t.2.1.stop 3)
          else if c.dir = 4 then
            let chan := if r.rchan then r.dchan else c.chan
            if !s.ownsSend g.tag r.dnode chan then s.putCopy (c.stop 2)
            else
              let n := writeCount r cs
              let old := ((s.fabric.send.find? fun x => x.node == r.dnode && x.chan == chan).map SendChan.count).getD 0#32
              (s.modFab fun f => { f with send := f.send.map fun x =>
                if x.node = r.dnode ∧ x.chan = chan then { x with count := old + BitVec.ofNat 32 n } else x }).putCopy
                { c with chan := chan, idx0 := old + 1#32 }
          else s.putCopy c)

/-- Whether the chunks of a copy from the start of the line that chunk `i` goes to fill all of that line, one after another (R207). -/
def wholeLine (chunks : Nat) (dst : Nat → Nat) (i : Nat) : Bool :=
  let line := dst i / 128 * 128
  let back := (dst i - line) / 16
  decide (back ≤ i) && (List.range 8).all fun j => decide (i - back + j < chunks) && dst (i - back + j) == line + 16 * j
/-- COPY_SECTOR (R245): one destination sector, in traversal order, or one write of a direction 4 copy. A step that must ask
another node or the host for a source sector asks, and the sector follows once it has come. -/
def execCopySector (job : Nat) (s : State) : Out :=
  .next (match s.copies.find? fun c => c.id == job with
    | none => s
    | some c =>
      match c.record with
      | none => s
      | some bs =>
        if !s.copyRuns c || s.copyAwaits c then s
        else
          let r := parseRec bs
          if c.dir = 4 then s.copyBlock c r
          else
            let g := (s.wgOf c.wg).getD default
            let size := (s.launchOf g.launch).krec.stashk * 65536
            let cs := c.coords r
            let chunk (i : Nat) : Chunk := chunkOf r cs (c.dir != 2) i
            let stash (k : Chunk) (base : Nat) : Nat := base + k.row * r.pitch + k.at'
            -- where a chunk goes: slot bytes in traversal order, a stash offset, or a global offset
            let dst (i : Nat) : Nat :=
              if c.xloadw then 16 * i
              else if c.dir = 1 then (chunk i).off.toNat
              else stash (chunk i) (if c.dir = 2 then r.dsoff else (c.args.getD 0 0#32).toNat)
            let i := c.cursor
            let a := dst i / 32 * 32
            let n := if i + 1 < r.chunks ∧ dst (i + 1) / 32 * 32 = a ∧ dst i < dst (i + 1) then 2 else 1
            let srcOut := (c.dir == 1 || c.dir == 2) && (List.range n).any fun j =>
              decide (size ≤ stash (chunk (i + j)) (c.args.getD 0 0#32).toNat)
            let q := (List.range n).foldl (fun (x : State × Copy × List (Placed × Bool)) j =>
              let k := chunk (i + j)
              let q := x.1.readChunk x.2.1 r k
              let p : Placed :=
                { byte := dst (i + j) % 32, bits := k.bits
                  bytes := (match q.2.2 with
                    | .bytes bs => bs
                    | _ => [])
                  tok := (match q.2.2 with
                    | .token t => some t
                    | _ => none) }
              (q.1, q.2.1, x.2.2 ++ [(p, q.2.2 == .wait)])) (s, c, [])
            let s := q.1
            let c := q.2.1
            if q.2.2.any Prod.snd then s.putCopy c
            else
              let ps := q.2.2.map Prod.fst
              let w := if c.xloadw then s.copyToSlot c r a ps
                else if c.dir = 1 then s.copyToGlobal c r a ps srcOut (wholeLine r.chunks dst i && (List.range 8).all fun j => (chunk (i - dst i % 128 / 16 + j)).bits == 128)
                else s.copyToStash c r a ps srcOut (wholeLine r.chunks dst i)
              w.1.putCopy { w.2 with cursor := i + n, sectors := w.2.sectors + 1, finished := decide (r.chunks ≤ i + n) })

/-- COPY_TAG_DONE (R245, R251, R272): the tag reaches DONE as a release at device scope, and a copy with ARR arrives. -/
def execCopyTagDone (job : Nat) (s : State) : Out :=
  .next (match s.copies.find? fun c => c.id == job with
    | none => s
    | some c =>
      if !c.finished || ((s.wgOf c.wg).getD default).saved then s
      else
        let s := { s with copies := s.copies.filter fun x => x.id != job }
        let s := if c.dir = 4 then s else s.modMem DevMem.sync
        let s := s.tagDone c.wg c.tag c.psn c.causes
        match c.arr with
        | none => s
        | some b => s.changeBar c.wg b fun x => { x with pend := x.pend + 1 })

/-! ## The instructions -/

/-- Checks of the word and of the preceding MOD (R244, R389, R415). -/
def State.copyRefused (s : State) (dir tag : Nat) : Bool :=
  !s.myWg.hasTag tag || (s.myLaunch.paired && (dir == 1 || dir == 4))
    || (match s.warp.hints.mod with
      | some m => m.arr && decide (s.myLaunch.krec.nbar ≤ m.bid)
      | none => false)
/-- The registers whose poison counts, in order: in direction 2 ARG+0 is the last (R244). -/
def copyCodes (r a : Code) (dir : Nat) : List Code := pairCodes r ++ (if dir = 2 then [a] else quadCodes a)
/-- The value checks of R244. -/
def copyValsBad : List Word → Bool
  | lo :: _ :: a0 :: _ => lo.toNat % 64 != 0 || a0.toNat % 16 != 0 || decide (2 ^ 20 ≤ a0.toNat)
  | _ => false

/-- XCOPY and XLOADW (R181, R244). The warp's earlier stores leave first (R240, R248; log 6). -/
def State.copy (s : State) (i : Instr) (r a : Code) (tag dir : Nat) (slot : Option Nat) : State :=
  let bad := match s.peeks (copyCodes r a dir) s.warp.nextAct.lowest with
    | some ws => copyValsBad ws
    | none => false
  let noSlot := match slot with
    | some k => decide (s.myWg.wslot.length ≤ k)
    | none => false
  s.issue i { reads := pairCodes r ++ quadCodes a, slotA := pairCodes r, slotB := quadCodes a }
      (noSlot || s.copyRefused dir tag || bad) (s.warp.acquiring || s.myTagBusy tag) fun s iss os =>
    let wg := s.warp.ref.wg
    let w := s.warp.ref
    let s := (s.tagBusy wg tag).drainWhere (s.coreOf wg) fun e => e.warp == w
    let vs := laneSrcs os iss.act.lowest
    let used := if dir = 2 then vs.take 3 else vs
    let c : Copy :=
      { id := s.nextId, wg := wg, warp := w, pc := iss.pc, word := encode i, xloadw := slot.isSome, dir := dir
        slot := slot.getD 0, tag := tag, recAddr := (wordsVal vs).toNat, args := (vs.drop 2).map Val.bits, arr := iss.arr
        chan := iss.chan, record := none, cursor := 0, sectors := 0, idx0 := 0#32, sent := 0, fetched := [], asked := []
        psn := false, causes := 0#64, tokens := [], finished := false }
    let s := { s with nextId := s.nextId + 1 }
    match firstPoison used with
    | some t => (s.flagMine [t]) |> fun s => { s with copies := s.copies ++ [c.stop (tokenCause t)] }
    | none => { s with copies := s.copies ++ [c] }

/-- XCOPY.G2S. -/
def execXcopyG2s (r a : BitVec 8) (t : BitVec 6) (s : State) : Out := .next (s.copy (.xcopyG2s r a t) r a t.toNat 0 none)
/-- XCOPY.S2G. -/
def execXcopyS2g (r a : BitVec 8) (t : BitVec 6) (s : State) : Out := .next (s.copy (.xcopyS2g r a t) r a t.toNat 1 none)
/-- XCOPY.S2C. -/
def execXcopyS2c (r a : BitVec 8) (t : BitVec 6) (s : State) : Out := .next (s.copy (.xcopyS2c r a t) r a t.toNat 2 none)
/-- XCOPY.MCAST. -/
def execXcopyMcast (r a : BitVec 8) (t : BitVec 6) (s : State) : Out := .next (s.copy (.xcopyMcast r a t) r a t.toNat 3 none)
/-- XCOPY.REMOTE. -/
def execXcopyRemote (r a : BitVec 8) (t : BitVec 6) (s : State) : Out := .next (s.copy (.xcopyRemote r a t) r a t.toNat 4 none)
/-- XLOADW (R181): it reads its box as direction 0 does. -/
def execXloadw (r a : BitVec 8) (t : BitVec 6) (sl : BitVec 3) (s : State) : Out :=
  .next (s.copy (.xloadw r a t sl) r a t.toNat 0 (some sl.toNat))
/-- RFENCE (R242). -/
def execRfence (s : State) : Out :=
  .next (s.issue .rfence { reads := [] } false false fun s _ _ =>
    let tag := s.myTag
    s.modCore (s.coreOf s.warp.ref.wg) fun c => { c with recCache := c.recCache.filter fun e => e.1 != tag })

end Sys2Proof.Machine
end

