-- ==== Sys2Proof/Machine/Matrix.lean ====
section
/-!
DEFINITION. The matrix engine (R158 to R182): MLOOP, MZERO, MSCALE, MOUT, MGET, MPUT and MPERTURB, and the events that run the
matrix queue.
-/
namespace Sys2Proof.Machine
open Sys2Proof

/-! ## The matrix queue (R160, R161) -/

/-- A queue entry with no operands. One of an instruction that captures no rounding holds RM 1 and SAT 0 (R186; log 80). -/
def MatEntry.blank (id wg : Nat) (w : WarpRef) (pc : DWord) (i : Instr) (k : MatKind) (slot : Nat) : MatEntry :=
  { id := id, wg := wg, warp := w, pc := pc, word := encode i, kind := k, slot := slot, fmt := 0, acm := false, done := 0
    begun := false, rm := 1, sat := false, a0 := 0, aop := 0, ctl := [], token := none, aScale := [], bScale := [], act := 0#32
    rows := [], vals := [], perturb := none, res := 0, flags := 0, psn := false, causes := 0#64 }
/-- The queue of the issuing warp's core is full (R160). -/
def State.queueFull (s : State) : Bool := decide (32 ≤ (s.coreAt (s.coreOf s.warp.ref.wg)).queue.length)
/-- The slot is at or above the workgroup's count (R158). -/
def State.noAcc (s : State) (slot : Nat) : Bool := decide (s.myWg.acc.length ≤ slot)
/-- Put an entry into the queue of the issuing warp's core; `f` fills in its operands. -/
def State.queueEntry (s : State) (i : Instr) (iss : Iss) (k : MatKind) (slot : Nat) (f : MatEntry → MatEntry) : State :=
  let e := f (MatEntry.blank s.nextId s.warp.ref.wg s.warp.ref iss.pc i k slot)
  { s.modCore (s.coreOf s.warp.ref.wg) fun c => { c with queue := c.queue ++ [e] } with nextId := s.nextId + 1 }

/-- An entry of any core's queue, by number. -/
def State.matEntry (s : State) (job : Nat) : Option MatEntry := s.cores.findSome? fun c => c.queue.find? fun e => e.id == job
/-- The queue that an entry stands in. -/
def State.queueOf (s : State) (e : MatEntry) : List MatEntry := (s.coreAt (s.coreOf e.wg)).queue
/-- Every earlier entry on the slot has completed (R161). -/
def State.slotTurn (s : State) (e : MatEntry) : Bool :=
  !((s.queueOf e).any fun x => x.wg == e.wg && x.slot == e.slot && decide (x.id < e.id))
/-- Replace an entry. -/
def State.putEntry (s : State) (e : MatEntry) : State :=
  s.modCore (s.coreOf e.wg) fun c => { c with queue := c.queue.map fun x => if x.id = e.id then e else x }
/-- An entry completes and leaves the queue. -/
def State.popEntry (s : State) (e : MatEntry) : State :=
  s.modCore (s.coreOf e.wg) fun c => { c with queue := c.queue.filter fun x => x.id != e.id }
/-- The workgroup of an entry. -/
def State.entryWg (s : State) (e : MatEntry) : Wg := (s.wgOf e.wg).getD default

/-- Control fields of MLOOP (R167). -/
def ctlCount (c : Word) : Nat := bitsAt c.toNat 0 12
def ctlTag (c : Word) : Nat := bitsAt c.toNat 12 6
def ctlSettag (c : Word) : Bool := c.getLsbD 18
def ctlClear (c : Word) : Bool := c.getLsbD 19
def ctlBslot (c : Word) : Nat := bitsAt c.toNat 20 3
def ctlBchunk (c : Word) : Nat := bitsAt c.toNat 23 3
def ctlBt (c : Word) : Bool := c.getLsbD 26
def ctlB24 (c : Word) : Bool := c.getLsbD 27
def ctlBgen (c : Word) : Nat := bitsAt c.toNat 28 2
def ctlSc (c : Word) : Bool := c.getLsbD 30

/-- Element width by FMT (R88). -/
def fmtBits (f : Nat) : Nat := if f ≤ 1 then 16 else if f ≤ 5 then 8 else 4
/-- K of a dense step: a row of 64 bytes (R15, R162). -/
def fmtK (f : Nat) : Nat := 512 / fmtBits f
/-- Chunk size and chunks in a slot (R163, R164). -/
def chunkSize (f : Nat) (b24 : Bool) : Nat := if !b24 then 4096 else if fmtBits f = 16 then 4608 else if fmtBits f = 8 then 5120 else 6144
def chunkCount (f : Nat) (b24 : Bool) : Nat := if !b24 then 8 else if fmtBits f = 16 then 7 else if fmtBits f = 8 then 6 else 5

/-! ## Elements and errors -/

/-- An element of an accumulator slot. -/
def elemOf (rows : List (List Val)) (i j : Nat) : Val := (rows.getD i []).getD j Val.zero
/-- A slot of clean zeros (R158). -/
def zeroSlot : List (List Val) := List.replicate 64 (List.replicate 64 Val.zero)
/-- A slot element by element. -/
def slotOf (f : Nat → Nat → Val) : List (List Val) := (List.range 64).map fun i => (List.range 64).map fun j => f i j
/-- The slot of an entry. -/
def State.slotRows (s : State) (e : MatEntry) : List (List Val) := (s.entryWg e).acc.getD e.slot zeroSlot
/-- Set the slot of an entry. -/
def State.setSlot (s : State) (e : MatEntry) (rows : List (List Val)) : State :=
  s.modWg e.wg fun g => { g with acc := updAt g.acc e.slot fun _ => rows }

/-- The origin of a token of engine work with its tile place (R376, R414). -/
def State.matOrigin (s : State) (e : MatEntry) (slot kind ix : Nat) : Origin :=
  { s.engineOrigin e.wg e.pc with tile := some (slot, kind, ix) }
/-- Accumulator words that hold an error are corrected, or become LINE_POISON, as rows of the slot are read (R394, R396). -/
def State.settleAcc (s : State) (e : MatEntry) (row : Nat → Bool) : State :=
  s.svc.wordErrors.foldl (fun s x => match x.loc with
    | .acc wg slot i j =>
      if wg = e.wg ∧ slot = e.slot ∧ row i = true then
        let s := s.foundWord (dieOf (s.entryWg e).core) x
        if x.soft then s
        else
          let t := s.mkToken (s.entryWg e).tag .linePoison (s.matOrigin e e.slot 3 (i * 64 + j))
          t.1.modWg wg fun g => { g with acc := updAt g.acc slot fun rs => updAt rs i fun r => updAt r j fun _ => Val.poison t.2 }
      else s
    | _ => s) s
/-- Weight sectors that hold an error are corrected, or become LINE_POISON, as a slot is read (R394, R396). -/
def State.settleWeight (s : State) (e : MatEntry) (slot : Nat) : State :=
  s.svc.wordErrors.foldl (fun s x => match x.loc with
    | .weight wg k sec =>
      if wg = e.wg ∧ k = slot then
        let s := s.foundWord (dieOf (s.entryWg e).core) x
        if x.soft then s
        else
          let t := s.mkToken (s.entryWg e).tag .linePoison (s.matOrigin e slot 4 sec)
          t.1.modWg wg fun g => { g with wslot := updAt g.wslot k fun m => m.mark (sec * 32) (some t.2) }
      else s
    | _ => s) s

/-! ## The sides of a step (R162 to R165) -/

/-- A row of A or a column of B: its token, or its element patterns. -/
structure Side where
  tok : Option Word
  vals : List Nat
  deriving DecidableEq, Repr, Inhabited

/-- The pattern of 1 in the element format of a side; `b` for the B side (R165). -/
def onePat (f : Nat) (b : Bool) : Nat :=
  match f with
  | 0 => 0x3F80
  | 1 => 0x3C00
  | 2 => 0x38
  | 3 => 0x3C
  | 4 => if b then 0x3C else 0x38
  | 6 => 2
  | _ => 1
/-- Element `n` of `w` bits in a byte memory that starts at `a` (R104). -/
def elemPat (m : Memory) (a w n : Nat) : Nat :=
  if w = 4 then (m.byte (a + n / 2)).toNat / (if n % 2 = 0 then 1 else 16) % 16 else m.nat (a + n * w / 8) (w / 8)
/-- The first token among the elements `0 .. n-1` whose bytes `pos` gives. `fails` gives the sectors whose read met
a fault, with its token (R207, R396). -/
def lowestToken (m : Memory) (fails : List (Nat × Word)) (n : Nat) (pos : Nat → Nat) : Option Word :=
  (List.range n).findSome? fun k => ((fails.find? fun f => f.1 == pos k / 32).map Prod.snd) <|> m.token (pos k)

/-- One row of a dense A tile: BOUNDS, or the first poisoned element's token, or its elements (R162). -/
def aRow (stash : Memory) (fails : List (Nat × Word)) (size : Nat) (bounds : Word) (a w keff : Nat) : Side :=
  if size < a + keff * w / 8 then { tok := some bounds, vals := [] }
  else { tok := lowestToken stash fails keff fun k => a + k * w / 8, vals := (List.range keff).map fun k => elemPat stash a w k }

/-- An engine's read of a run of stash bytes: it fills the registered lines that it touches and meets the errors of their sectors (R207, R396,
R400). The sectors that gave it a token in place of their contents. -/
def State.touchRun (s : State) (wg a n : Nat) (o : Origin) : State × List (Nat × Word) :=
  let tag := ((s.wgOf wg).getD default).tag
  (List.range ((a + n + 127) / 128 - a / 128)).foldl (fun r i =>
    let line := a / 128 + i
    let q := r.1.readyStash tag wg (128 * line) o
    match q.2 with
    | some t => (q.1, r.2 ++ (List.range 4).map fun k => (4 * line + k, t))
    | none =>
      ((List.range 4).filter fun k => decide (128 * line + 32 * k < a + n) && decide (a < 128 * line + 32 * k + 32)).foldl (fun r k =>
        let x := r.1.readStash tag wg (128 * line + 32 * k) o
        (x.1, r.2 ++ (x.2.map fun t => (4 * line + k, t)).toList)) (q.1, r.2)) (s, [])

/-- One column of a dense B chunk (R163). -/
def bColumn (m : Memory) (base w k j : Nat) (bt : Bool) : Side :=
  let ix (n : Nat) : Nat := if bt then k * j + n else 64 * n + j
  { tok := lowestToken m [] k fun n => base + ix n * w / 8, vals := (List.range k).map fun n => elemPat m base w (ix n) }
/-- The metadata nibble of a group and column of a compressed chunk (R164). -/
def metaNibble (m : Memory) (base g j : Nat) : Nat :=
  (m.byte (base + 4096 + (64 * g + j) / 2)).toNat / (if j % 2 = 0 then 1 else 16) % 16
/-- The token of the metadata sector of a group and column. -/
def metaToken (m : Memory) (base g j : Nat) : Option Word := m.token (base + 4096 + (64 * g + j) / 2)
/-- A nibble whose kept indices do not rise (R164). -/
def badNibble (n : Nat) : Bool := decide (n / 4 ≤ n % 4)
/-- One column of a compressed B chunk; `bad` is the step's token of a bad nibble (R164). -/
def bColumn24 (m : Memory) (base w keff j : Nat) (bad : Word) : Side :=
  let groups := keff / 4
  match (List.range groups).findSome? fun g => metaToken m base g j with
  | some t => { tok := some t, vals := [] }
  | none =>
    if (List.range groups).any fun g => badNibble (metaNibble m base g j) then { tok := some bad, vals := [] }
    else
      -- kept values rise with k inside a group, so the first poisoned kept value is the lowest k
      { tok := lowestToken m [] (keff / 2) fun h => base + (64 * h + j) * w / 8
        vals := (List.range groups).flatMap fun g =>
          let n := metaNibble m base g j
          (List.range 4).map fun i =>
            if i = n % 4 then elemPat m base w (64 * (2 * g) + j)
            else if i = n / 4 then elemPat m base w (64 * (2 * g + 1) + j) else 0 }

/-- The index vector of PERM, read at the start of the first step: 64 bytes, or one token for every row (R165). -/
def State.readPi (s : State) (e : MatEntry) : State × List Val :=
  let g := s.entryWg e
  let a := bitsAt (e.ctl.getD 1 0#32).toNat 0 16 * 16
  let size := (s.launchOf g.launch).krec.stashk * 65536
  if size < a + 64 then
    let t := s.mkToken g.tag .bounds (s.matOrigin e e.slot 1 0)
    (t.1, List.replicate 64 (Val.poison t.2))
  else
    let q := s.touchRun e.wg a 64 (s.engineOrigin e.wg e.pc)
    let s := q.1
    let m := (s.entryWg e).stash
    match lowestToken m q.2 64 fun k => a + k with
    | some t => (s, List.replicate 64 (Val.poison t))
    | none => (s, (m.bytes a 64).map fun b => Val.clean (b.setWidth 32))

/-- The rows of A for a step, and the entry with the index vector of PERM. -/
def State.aSides (s : State) (e : MatEntry) (keff : Nat) : State × MatEntry × List Side :=
  let c1 := (e.ctl.getD 1 0#32).toNat
  let gen (f : Nat → Nat → Bool) : List Side := (List.range 64).map fun i =>
    { tok := none, vals := (List.range keff).map fun k => if f i k then onePat e.fmt false else 0 }
  let kap (k : Nat) : Nat := e.done * keff + k
  if e.aop = 0xF8 then (s, e, gen fun i k => kap k == i)
  else if e.aop = 0xFA then (s, e, gen fun _ _ => true)
  else if e.aop = 0xF9 then
    let p := if e.done = 0 then s.readPi e else (s, e.vals)
    let row (i : Nat) : Side :=
      let v := laneOf p.2 i
      if v.psn then { tok := some v.bits, vals := [] }
      else { tok := none, vals := (List.range keff).map fun k =>
        if decide (v.bits.toNat < 64) && kap k == v.bits.toNat then onePat e.fmt false else 0 }
    (p.1, { e with vals := p.2 }, (List.range 64).map row)
  else
    let w := fmtBits e.fmt
    let at' (i : Nat) : Nat := e.a0 + e.done * bitsAt c1 0 16 + i * bitsAt c1 16 16
    let g := s.entryWg e
    let size := (s.launchOf g.launch).krec.stashk * 65536
    let out := (List.range 64).find? fun i => decide (size < at' i + keff * w / 8)
    let t := match out with
      | some i => s.mkToken g.tag .bounds (s.matOrigin e e.slot 1 i)
      | none => (s, 0#32)
    let q := (List.range 64).foldl (fun (r : State × List (List (Nat × Word))) i =>
      if size < at' i + keff * w / 8 then (r.1, r.2 ++ [[]])
      else
        let x := r.1.touchRun e.wg (at' i) (keff * w / 8) (r.1.engineOrigin e.wg e.pc)
        (x.1, r.2 ++ [x.2])) (t.1, [])
    let s := q.1
    let m := (s.entryWg e).stash
    (s, e, (List.range 64).map fun i => aRow m (q.2.getD i []) size t.2 (at' i) w keff)

/-- The columns of B for a step. -/
def State.bSides (s : State) (e : MatEntry) (keff : Nat) : State × List Side :=
  let c0 := e.ctl.getD 0 0#32
  let gen (f : Nat → Nat → Bool) : List Side := (List.range 64).map fun j =>
    { tok := none, vals := (List.range keff).map fun k => if f k j then onePat e.fmt true else 0 }
  if ctlBgen c0 = 1 then (s, gen fun k j => e.done * keff + k == j)
  else if ctlBgen c0 = 2 then (s, gen fun _ _ => true)
  else
    let b24 := ctlB24 c0
    let w := fmtBits e.fmt
    let n := ctlBchunk c0 + e.done
    let slot := (ctlBslot c0 + n / chunkCount e.fmt b24) % (s.entryWg e).wslot.length
    let base := n % chunkCount e.fmt b24 * chunkSize e.fmt b24
    let s := s.settleWeight e slot
    let m := (s.entryWg e).wslot.getD slot Memory.empty
    if b24 then
      let bad := (List.range 64).find? fun j => (List.range (keff / 4)).all (fun g => (metaToken m base g j).isNone)
        && (List.range (keff / 4)).any fun g => badNibble (metaNibble m base g j)
      let t := match bad with
        | some j => s.mkToken (s.entryWg e).tag .illegalOperand (s.matOrigin e e.slot 2 j)
        | none => (s, 0#32)
      (t.1, (List.range 64).map fun j => bColumn24 m base w keff j t.2)
    else (s, (List.range 64).map fun j => bColumn m base w keff j (ctlBt c0))

/-! ## One step (R171) -/

/-- The value of an element pattern of a floating format. -/
def fmtVal (f : Nat) (b : Bool) (p : Nat) : FVal :=
  match f with
  | 0 => bf16.decode p
  | 1 => fp16.decode p
  | 2 => f8a.decode p
  | 3 => f8b.decode p
  | 4 => if b then f8b.decode p else f8a.decode p
  | _ => f4.decode p
/-- One element of a floating step: the exact sum of products, scaled, with the old value and the addend, rounded once. -/
def floatElem (f rm : Nat) (sat : Bool) (scale : Option (Nat × Nat)) (old : Word) (add : Option Word) (a b : List Nat) : Delivered :=
  let prods := (List.zipWith (fun x y => (fmtVal f false x).mul (fmtVal f true y)) a b).map fun t => match scale with
    | some (ka, kb) => (t.scale (x8 ka)).scale (x8 kb)
    | none => t
  let adds := match add with
    | some v => [fp32.decode v.toNat]
    | none => []
  fp32.deliver { rm := rm, sat := sat, ftz := false } (sumExact rm (fp32.decode old.toNat :: (prods ++ adds)))
/-- One element of an integer step, modulo 2^32. -/
def intElem (w : Nat) (old : Word) (add : Option Word) (a b : List Nat) : Word :=
  let s := (List.zipWith (fun x y => intOf w true x * intOf w true y) a b).foldl (· + ·) (0 : Int)
  trunc32 (old.toInt + s + (match add with
    | some v => v.toInt
    | none => 0))
/-- One element of D after a step, and its flags (R171). -/
def stepElem (e : MatEntry) (sc : Bool) (old : Val) (add : Option Val) (i j : Nat) (a b : Side) : Val × Flags :=
  match a.tok with
  | some t => (Val.poison t, 0#6)
  | none =>
    match b.tok with
    | some t => (Val.poison t, 0#6)
    | none =>
      if (add.map Val.psn).getD false then (add.getD Val.zero, 0#6)
      else if old.psn then (old, 0#6)
      else if e.fmt = 5 ∨ e.fmt = 7 then
        (Val.clean (intElem (fmtBits e.fmt) old.bits (add.map Val.bits) a.vals b.vals), 0#6)
      else
        let r := floatElem e.fmt e.rm e.sat (if sc then some (e.aScale.getD i 0, e.bScale.getD j 0) else none) old.bits
          (add.map Val.bits) a.vals b.vals
        (Val.clean (BitVec.ofNat 32 r.1), r.2)

/-- Whether a sequence may start or go on: its slot's turn, its mask, and steps left (R170). -/
def State.mloopReady (s : State) (e : MatEntry) : Bool :=
  e.kind == .mloop && e.token.isNone && decide (e.done < ctlCount (e.ctl.getD 0 0#32)) && s.slotTurn e
    && (e.begun || (s.entryWg e).maskDone false (joinWords (e.ctl.getD 2 0#32) (e.ctl.getD 3 0#32)))
/-- The stores that the issuing warp of an entry made before it, and those that a narrow release has ordered before the warp, leave their
queues before an engine reads for it (R183, R259). -/
def State.engineReads (s : State) (w : WarpRef) (id : Nat) : State :=
  (s.ordered w).drainWhere (s.coreOf w.wg) fun e => e.warp == w && decide (e.id < id)
/-- MLOOP_STEP (R171): the array takes the oldest sequence that is ready. -/
def execMloopStep (job : Nat) (s : State) : Out :=
  .next (match s.matEntry job with
    | none => s
    | some e =>
      if !s.mloopReady e || (s.queueOf e).any fun x => decide (x.id < e.id) && s.mloopReady x then s
      else
        let c0 := e.ctl.getD 0 0#32
        let keff := if ctlB24 c0 then 2 * fmtK e.fmt else fmtK e.fmt
        let keeps := e.acm || e.done != 0
        let s := s.engineReads e.warp e.id
        let s := if keeps then s.settleAcc e fun _ => true else s
        let a := s.aSides e keff
        let b := a.1.bSides a.2.1 keff
        let e := a.2.1
        let old := b.1.slotRows e
        let cell (i j : Nat) : Val × Flags :=
          let add := match e.perturb with
            | some (ix, v) => if e.done = 0 ∧ ix = i * 64 + j then some v else none
            | none => none
          stepElem e (ctlSc c0) (if keeps then elemOf old i j else Val.zero) add i j (a.2.2.getD i default) (b.2.getD j default)
        let out := (List.range 64).map fun i => (List.range 64).map fun j => cell i j
        let fl := out.foldl (fun f r => r.foldl (fun f x => f ||| x.2) f) 0#6
        (b.1.setSlot e (out.map fun r => r.map Prod.fst)).putEntry
          { e with done := e.done + 1, begun := true, flags := (BitVec.ofNat 6 e.flags ||| fl).toNat })

/-- The cause bits of the poisoned elements of a slot. -/
def slotCauses (rows : List (List Val)) : DWord :=
  rows.foldl (fun m r => r.foldl (fun m v => if v.psn then m ||| causeBit (tokenCause v.bits) else m) m) 0#64
/-- Merge flags into the FPSTAT of a warp. -/
def State.mergeFlags (s : State) (w : WarpRef) (f : Nat) : State := s.modWarp w fun x => x.raiseFlags (BitVec.ofNat 6 f)
/-- The completion of an MLOOP: its tag, or its flags where it sets none (R69, R173). -/
def State.mloopEnd (s : State) (e : MatEntry) (settag psn : Bool) (causes : DWord) : State :=
  let s := s.popEntry e
  if settag then
    { s with nextId := s.nextId + 1, tagDones := s.tagDones ++
      [{ id := s.nextId, wg := e.wg, tag := ctlTag (e.ctl.getD 0 0#32), psn := psn, causes := causes, warp := e.warp, flags := e.flags }] }
  else s.mergeFlags e.warp e.flags
/-- MLOOP_COMPLETE (R169, R172, R173). -/
def execMloopComplete (job : Nat) (s : State) : Out :=
  .next (match s.matEntry job with
    | none => s
    | some e =>
      if e.kind != .mloop || !s.slotTurn e then s
      else
        let c0 := e.ctl.getD 0 0#32
        match e.token with
        | some t =>
          (s.setSlot e (slotOf fun _ _ => Val.poison t)).mloopEnd e e.acm true (causeBit (tokenCause t))
        | none =>
          let count := ctlCount c0
          if count = 0 then
            if !(s.entryWg e).maskDone false (joinWords (e.ctl.getD 2 0#32) (e.ctl.getD 3 0#32)) then s
            else (if ctlClear c0 then s.setSlot e zeroSlot else s).mloopEnd e (ctlSettag c0) false 0#64
          else if e.done < count then s
          else
            let m := slotCauses (s.slotRows e)
            s.mloopEnd e (ctlSettag c0) (m != 0#64) m)
/-- MATRIX_TAG_DONE (R173, R180): eight cycles after the last write the tag reaches DONE, and flags merge. -/
def execMatrixTagDone (job : Nat) (s : State) : Out :=
  .next (match s.tagDones.find? fun t => t.id == job with
    | none => s
    | some t =>
      if ((s.wgOf t.wg).getD default).saved then s
      else ({ s with tagDones := s.tagDones.filter fun x => x.id != job }.mergeFlags t.warp t.flags).tagDone t.wg t.tag t.psn t.causes)

/-! ## Slot accesses (R175 to R178) -/

/-- MSCALE on a slot: its elements and flags (R176). -/
def scaleSlot (e : MatEntry) (rows : List (List Val)) : List (List Val) × Nat :=
  let env : FpEnv := { rm := e.rm, sat := e.sat, ftz := false }
  let cell (i j : Nat) : Val × Flags :=
    let f := e.vals.getD i Val.zero
    let d := elemOf rows i j
    if f.psn then (f, 0#6)
    else if d.psn then (d, 0#6)
    else
      let r := fMul fp32 env d.bits.toNat f.bits.toNat
      (Val.clean (BitVec.ofNat 32 r.1), r.2)
  let out := (List.range 64).map fun i => (List.range 64).map fun j => cell i j
  (out.map fun r => r.map Prod.fst, (out.foldl (fun f r => r.foldl (fun f x => f ||| x.2) f) 0#6).toNat)
/-- The words that MGET delivers to a lane (R177). -/
def getLane (rows : List (List Val)) (row : Val) (l : Nat) : List Val :=
  if row.psn then [row, row]
  else
    let r := row.bits.toNat % 64
    [elemOf rows r (2 * l), elemOf rows r (2 * l + 1)]
/-- MPUT on a slot (R178). -/
def putSlot (e : MatEntry) (rows : List (List Val)) : List (List Val) :=
  slotOf fun i j =>
    let l := j / 2
    let row := laneOf e.rows l
    if e.act.has l && !row.psn && row.bits.toNat % 64 == i then e.vals.getD j Val.zero else elemOf rows i j
/-- SLOT_ACCESS (R175): MZERO, MSCALE, MGET and MPUT on their slot, in slot order. -/
def execSlotAccess (job : Nat) (s : State) : Out :=
  .next (match s.matEntry job with
    | none => s
    | some e =>
      if !s.slotTurn e then s
      else match e.kind with
        | .mzero => (s.setSlot e zeroSlot).popEntry e
        | .mscale =>
          let s := s.settleAcc e fun _ => true
          let r := scaleSlot e (s.slotRows e)
          ((s.setSlot e r.1).popEntry e).mergeFlags e.warp r.2
        | .mget =>
          let wanted (i : Nat) : Bool := (lanesOf e.act).any fun l => !(laneOf e.rows l).psn && (laneOf e.rows l).bits.toNat % 64 == i
          let s := s.settleAcc e wanted
          let rows := s.slotRows e
          let words := byWord 2 fun l => getLane rows (laneOf e.rows l) l
          (s.popEntry e).asWarp e.warp fun s =>
            match s.warp.pend.find? fun p => p.id == e.res with
            | some p => s.arrive { p with words := words } p.pc 8
            | none => s
        | .mput =>
          let bad := distinct ((lanesOf e.act).filterMap fun l => let v := laneOf e.rows l; if v.psn then some v.bits else none)
          let s := (s.setSlot e (putSlot e (s.slotRows e))).popEntry e
          if bad.isEmpty then s else s.flagTokens (s.entryWg e).tag e.warp bad
        | _ => s)

/-! ## MOUT (R179, R180) -/

/-- Bytes of an output row, and the CVT code of an output format (R86, R88). -/
def outRow (f : Nat) : Nat := if f ≤ 1 then 128 else if f = 8 then 256 else if f = 6 ∨ f = 7 then 32 else 64
def outCode (f : Nat) : Nat :=
  match f with
  | 0 => 4
  | 1 => 3
  | 2 => 5
  | 3 => 6
  | 5 => 8
  | 6 => 7
  | _ => 9
/-- Bits of an output element. -/
def outBits (f : Nat) : Nat := outRow f / 8
/-- Convert one clean element (R180). -/
def outElem (e : MatEntry) (x : Word) : Delivered :=
  let c0 := e.ctl.getD 0 0#32
  let env : FpEnv := { rm := e.rm, sat := e.sat, ftz := false }
  let srci := c0.getLsbD 23
  if e.fmt = 8 then (x.toNat, 0#6)
  else if c0.getLsbD 22 then
    let v := if srci then ofInteger x.toInt else fp32.decode x.toNat
    let y := v.mul (fp32.decode (e.ctl.getD 1 0#32).toNat)
    match intCode (outCode e.fmt) with
    | some (w, sg) => toInteger e.rm w sg y
    | none =>
      let r := toFloat (floatCode (outCode e.fmt)) env y
      -- 0 times infinity, or a signalling NaN, is invalid whatever the destination (R112)
      (r.1, r.2 ||| flIf y.signals flNV)
  else convertFmt env (outCode e.fmt) (if srci then 0 else 2) x.toNat
/-- The fields of CTL+2 and the pitch. -/
def outPitch (e : MatEntry) : Nat := bitsAt (e.ctl.getD 0 0#32).toNat 0 16
def outFirst (e : MatEntry) : Nat := bitsAt (e.ctl.getD 2 0#32).toNat 0 6
def outRows (e : MatEntry) : Nat := bitsAt (e.ctl.getD 2 0#32).toNat 6 7
/-- One stash sector of an output row: its write, token and flags. -/
def outSector (e : MatEntry) (row : List Val) (a k : Nat) : SectorWrite × Option Word × Flags :=
  let w := outBits e.fmt
  let per := 256 / w
  let vs := (List.range per).map fun i => row.getD (k * per + i) Val.zero
  let rs := vs.map fun v => if v.psn then (0, 0#6) else outElem e v.bits
  let fl := rs.foldl (fun f r => f ||| r.2) 0#6
  match firstPoison vs with
  | some t => (sectorPoison a t, some t, fl)
  | none => (sectorBytes a (packElems w (rs.map Prod.fst) 32), none, fl)
/-- Whether a MOUT of `n` rows writes all of the 128-byte line of the stash byte `a` of the row that starts at `row` (R207). -/
def MatEntry.wholeLine (e : MatEntry) (n row a : Nat) : Bool :=
  let size := outRow e.fmt
  let (lo, hi) := if outPitch e = size then (e.a0, e.a0 + n * size) else (row, row + size)
  decide (lo ≤ a / 128 * 128) && decide (a / 128 * 128 + 128 ≤ hi)
/-- What a MOUT has met. -/
structure OutRun where
  psn : Bool
  causes : DWord
  flags : Flags
  deriving DecidableEq, Repr, Inhabited
/-- MOUT_EXECUTE (R180). -/
def execMoutExecute (job : Nat) (s : State) : Out :=
  .next (match s.matEntry job with
    | none => s
    | some e =>
      if e.kind != .mout || !s.slotTurn e then s
      else
        let first := outFirst e
        let n := outRows e
        let s := s.settleAcc e fun i => decide (first ≤ i) && decide (i < first + n)
        let rows := s.slotRows e
        let g := s.entryWg e
        let size := (s.launchOf g.launch).krec.stashk * 65536
        let at' (r : Nat) : Nat := e.a0 + (r - first) * outPitch e
        let out (r : Nat) : Bool := decide (size < at' r + outRow e.fmt)
        let rs := (List.range n).map fun k => first + k
        let r0 : State × OutRun := match rs.find? out with
          | some r =>
            let t := s.mkToken g.tag .bounds (s.matOrigin e e.slot 1 r)
            (t.1, { psn := true, causes := causeBit 3, flags := 0#6 })
          | none => (s, { psn := false, causes := 0#64, flags := 0#6 })
        let r := rs.foldl (fun x r =>
          if out r then x
          else (List.range (outRow e.fmt / 32)).foldl (fun (x : State × OutRun) k =>
            let w := outSector e (rows.getD r []) (at' r + 32 * k) k
            let q := x.1.stashPut g.tag (x.1.engineOrigin e.wg e.pc) (e.wholeLine n (at' r) (at' r + 32 * k)) e.wg w.1
            (q.1,
              { psn := x.2.psn || (q.2 <|> w.2.1).isSome
                causes := (match q.2 <|> w.2.1 with
                  | some t => x.2.causes ||| causeBit (tokenCause t)
                  | none => x.2.causes)
                flags := x.2.flags ||| w.2.2 })) x) r0
        let s := r.1.popEntry e
        { s with nextId := s.nextId + 1, tagDones := s.tagDones ++
          [{ id := s.nextId, wg := e.wg, tag := bitsAt (e.ctl.getD 0 0#32).toNat 16 6, psn := r.2.psn, causes := r.2.causes
             warp := e.warp, flags := r.2.flags.toNat }] })

/-! ## The instructions -/

/-- The codes that name A's offset: none for a generated A (R166). -/
def aopCodes (a : Code) : List Code := if a.toNat < 0xF8 then [a] else []
/-- The value checks of MLOOP on its clean values (R168). -/
def mloopBad (g : Wg) (fmt aop : Nat) (scaled : Bool) (a0 : Nat) (c0 c1 c2 c3 : Word) : Bool :=
  let b24 := ctlB24 c0
  let m := joinWords c2 c3
  let pitch := bitsAt c1.toNat 16 16
  c0.getLsbD 31 || ctlBgen c0 == 3 || ((b24 || ctlBt c0) && ctlBgen c0 != 0) || (b24 && ctlBt c0)
    || (ctlClear c0 && ctlCount c0 != 0) || a0 % 16 != 0
    || (ctlBgen c0 == 0 && (decide (g.wslot.length ≤ ctlBslot c0) || decide (chunkCount fmt b24 ≤ ctlBchunk c0)))
    || (ctlSettag c0 && (!g.hasTag (ctlTag c0) || m.getLsbD (ctlTag c0)))
    || ((tagsOf m).any fun t => !g.hasTag t)
    || (ctlSc c0 && (!(fmt == 2 || fmt == 3 || fmt == 4 || fmt == 6) || !scaled))
    || (if aop < 0xF8 then pitch % 16 != 0 || decide (pitch < (if b24 then 128 else 64)) || c1.toNat % 16 != 0
        else if aop = 0xF9 then decide (65536 ≤ c1.toNat) else c1 != 0#32)
/-- Scale byte ⌊i ÷ 32⌋ of lane i mod 32, for rows or columns 0 to 63 (R171). -/
def scaleBytes (o : Opd) : List Nat := (List.range 64).map fun i => (laneOf o.lanes (i % 32)).bits.toNat / 2 ^ (8 * (i / 32)) % 256
/-- The first poisoned lane of an operand. -/
def wideToken (o : Opd) : Option Word := firstPoison ((List.range 32).map fun l => laneOf o.lanes l)
/-- MLOOP (R166 to R170). Poisoned, it sets the tag that a clean CTL+0 names, if that lies in the workgroup's run (R169; log 70). One that
is not poisoned and has COUNT of 1 or more takes the warp's arm with it when it issues, and a poisoned one leaves the arm to the warp (R182; log 79).
The acm field of an entry with a token says whether its tag is to be set. -/
def execMloop (n f : BitVec 4) (a c : BitVec 8) (m : BitVec 1) (s : State) : Out :=
  let w := s.warp
  let lane := w.nextAct.lowest
  let c0 := s.peek c lane
  let scaled := w.hints.scale.isSome
  let sc := (c0.map ctlSc).getD false
  let scales := if sc then (match w.hints.scale with
    | some (x, y) => [x, y]
    | none => []) else []
  let vals := aopCodes a ++ quadCodes c
  let scalesClean := scales.all fun x => (List.range 32).all fun l => (s.peek x l).isSome
  let bad := scalesClean && (match s.peeks vals lane with
    | some ws => mloopBad s.myWg f.toNat a.toNat scaled (if a.toNat < 0xF8 then (ws.headD 0#32).toNat else 0)
        (ws.getD (ws.length - 4) 0#32) (ws.getD (ws.length - 3) 0#32) (ws.getD (ws.length - 2) 0#32) (ws.getD (ws.length - 1) 0#32)
    | none => false)
  let tagWait := match c0 with
    | some x => ctlSettag x && s.myTagBusy (ctlTag x)
    | none => false
  .next (s.issue (.mloop n f a c m)
      { reads := vals ++ scales, slotA := aopCodes a, wide := scales }
      (s.noAcc n.toNat || bad) (s.queueFull || tagWait) fun s iss os =>
    let vs := laneSrcs os iss.act.lowest
    let k := (aopCodes a).length
    let ctl := (vs.drop k).take 4
    let sOps := os.drop (k + 4)
    let first := firstPoison (vs.take (k + 4)) <|> sOps.findSome? wideToken
    let x0 := ctl.headD Val.zero
    let settag := !x0.psn && ctlSettag x0.bits && s.myWg.hasTag (ctlTag x0.bits)
    let s := if settag then s.tagBusy s.warp.ref.wg (ctlTag x0.bits) else s
    let base (e : MatEntry) : MatEntry :=
      { e with fmt := f.toNat, aop := a.toNat, acm := m == 1#1, rm := iss.env.rm, sat := iss.env.sat, ctl := ctl.map Val.bits
               a0 := if a.toNat < 0xF8 then ((vs.headD Val.zero).bits).toNat else 0
               aScale := (sOps[0]?.map scaleBytes).getD [], bScale := (sOps[1]?.map scaleBytes).getD [] }
    match first with
    | some t => (s.flagMine [t]).queueEntry (.mloop n f a c m) iss .mloop n.toNat fun e =>
        { base e with token := some t, acm := settag }
    | none =>
      let arm := if ctlCount x0.bits = 0 then none else s.warp.perturb
      let s := if ctlCount x0.bits = 0 then s else s.modFocus fun w => { w with perturb := none }
      s.queueEntry (.mloop n f a c m) iss .mloop n.toNat fun e => { base e with perturb := arm })

/-- MZERO (R175). -/
def execMzero (n : BitVec 4) (s : State) : Out :=
  .next (s.issue (.mzero n) { reads := [] } (s.noAcc n.toNat) s.queueFull fun s iss _ =>
    s.queueEntry (.mzero n) iss .mzero n.toNat id)
/-- MSCALE (R176): the pair is read in every lane. -/
def execMscale (n : BitVec 4) (a : BitVec 8) (s : State) : Out :=
  .next (s.issue (.mscale n a) { reads := pairCodes a, slotA := pairCodes a, wide := pairCodes a } (s.noAcc n.toNat) s.queueFull
      fun s iss os =>
    let factor (i : Nat) : Val := laneOf (os.getD (i / 32) default).lanes (i % 32)
    s.queueEntry (.mscale n a) iss .mscale n.toNat fun e =>
      { e with rm := iss.env.rm, sat := iss.env.sat, vals := (List.range 64).map factor })
/-- MGET (R177). -/
def execMget (d a : BitVec 8) (sl : BitVec 4) (s : State) : Out :=
  .next (s.issue (.mget d a sl) { reads := [a], slotA := [a], dsts := pairCodes d } (s.noAcc sl.toNat) s.queueFull fun s iss os =>
    let id := s.nextId
    let s := { s with nextId := id + 1 }.awaitResult
      { id := id, dsts := pairCodes d, words := [splat Val.zero, splat Val.zero], mask := iss.act, left := iss.act
        shapes := [.g, .g], pc := iss.pc, faults := [], flags := false, acq := false, wideAcq := false, dropped := false }
    s.queueEntry (.mget d a sl) iss .mget sl.toNat fun e =>
      { e with act := iss.act, rows := (os.getD 0 default).lanes, res := id })
/-- MPUT (R178): a LIFE mark concerns the pair alone. -/
def execMput (r a : BitVec 8) (sl : BitVec 4) (s : State) : Out :=
  .next (s.issue (.mput r a sl) { reads := pairCodes a ++ [r], slotA := pairCodes a } (s.noAcc sl.toNat) s.queueFull fun s iss os =>
    -- a lane outside the mask has the words 0 in the entry's record (R186)
    let v (j : Nat) : Val := if iss.act.has (j / 2) then laneOf (os.getD (j % 2) default).lanes (j / 2) else Val.zero
    s.queueEntry (.mput r a sl) iss .mput sl.toNat fun e =>
      { e with act := iss.act, rows := (os.getD 2 default).lanes, vals := (List.range 64).map v })

/-- The value checks of MOUT on its clean values (R179). -/
def moutBad (g : Wg) (fmt sa : Nat) (c0 c2 c3 : Word) : Bool :=
  let pitch := bitsAt c0.toNat 0 16
  let rows := bitsAt c2.toNat 6 7
  sa % 32 != 0 || decide (2 ^ 24 ≤ c0.toNat) || (fmt == 8 && c0.getLsbD 22) || !g.hasTag (bitsAt c0.toNat 16 6)
    || pitch % 32 != 0 || decide (pitch < outRow fmt) || decide (2 ^ 13 ≤ c2.toNat) || rows == 0 || decide (64 < rows)
    || decide (64 < bitsAt c2.toNat 0 6 + rows) || c3 != 0#32
/-- MOUT (R179). Poisoned, it sets its tag as MLOOP does (log 70). -/
def execMout (n f : BitVec 4) (a c : BitVec 8) (s : State) : Out :=
  let w := s.warp
  let lane := w.nextAct.lowest
  let bad := match s.peeks (a :: quadCodes c) lane with
    | some [sa, c0, _, c2, c3] => moutBad s.myWg f.toNat sa.toNat c0 c2 c3
    | _ => false
  let tagWait := match s.peek c lane with
    | some x => s.myTagBusy (bitsAt x.toNat 16 6)
    | none => false
  .next (s.issue (.mout n f a c) { reads := a :: quadCodes c, slotA := [a] } (s.noAcc n.toNat || bad)
      (s.queueFull || tagWait) fun s iss os =>
    let vs := laneSrcs os iss.act.lowest
    let x0 := vs.getD 1 Val.zero
    let wg := s.warp.ref.wg
    let tag := bitsAt x0.bits.toNat 16 6
    match firstPoison vs with
    | some t =>
      let s := s.flagMine [t]
      if x0.psn || !s.myWg.hasTag tag then s else (s.tagBusy wg tag).tagDone wg tag true (causeBit (tokenCause t))
    | none =>
      (s.tagBusy wg tag).queueEntry (.mout n f a c) iss .mout n.toNat fun e =>
        { e with fmt := f.toNat, rm := iss.env.rm, sat := iss.env.sat, a0 := ((vs.headD Val.zero).bits).toNat
                 ctl := (vs.drop 1).map Val.bits })

/-- MPERTURB (R182): only in a context with the injection right. -/
def execMperturb (a b : BitVec 8) (s : State) : Out :=
  .next (s.issue (.mperturb a b) { reads := [a, b], slotA := [a], slotB := [b] } (!(s.ctx s.myTag).inject) false fun s iss os =>
    let vs := laneSrcs os iss.act.lowest
    let ix := vs.getD 0 Val.zero
    if ix.psn then (s.modFocus fun w => { w with perturb := none }).flagMine [ix.bits]
    else s.modFocus fun w => { w with perturb := some (ix.bits.toNat % 4096, vs.getD 1 Val.zero) })

end Sys2Proof.Machine
end

