-- ==== Sys2Proof/Machine/Wait.lean ====
section
/-!
DEFINITION. STC (R283, R284) with STC_FLAG_SEND, and WAITV (R294 to R296) with its tests and its timeout.
-/
namespace Sys2Proof.Machine
open Sys2Proof

/-! ## STC -/

/-- What a lane of STC does. -/
inductive LaneSend where
  | held (h : HeldLane)
  | send (node : Nat) (off : DWord)
  deriving DecidableEq, Repr, Inhabited

/-- The faults of STC: those of R215 and R280, and BOUNDS where the address is not SPACE 0 of another node (R284). -/
def State.stcFaults (s : State) (chan : Nat) (clean : Nat → Bool) (as : List LaneAcc) : List LaneFault :=
  let own (a : LaneAcc) : LaneFault :=
    { lane := a.lane, cause := .bounds, place := a.place, off := a.off, space := 0, xoff := a.off }
  as.flatMap fun a => match a.way with
    | .mem _ _ | .host _ _ => if clean a.lane then [own a] else []
    | _ => s.laneFaults chan clean [a]

/-- The outcome of one lane of STC (R215, R280, R284). Both words of a withheld flag hold its token (log 24). -/
def State.laneStc (s : State) (chan : Nat) (toks : List (Cause × Word)) (v : Val) (a : LaneAcc) : LaneSend :=
  let hold (t : Word) : LaneSend :=
    .held { lane := a.lane, token := t
            pieces := some (rackPieces s.fabric.node a 8 (List.replicate 8 0#8) fun _ => some t) }
  match a.way with
  | .bad t => .held { lane := a.lane, pieces := none, token := t }
  | .fault c _ _ => .held { lane := a.lane, pieces := none, token := tokenIn toks c }
  | .remote n off =>
    if v.psn then hold v.bits
    else if s.ownsSend s.myTag n chan then .send n off
    else hold (tokenIn toks .protection)
  | _ => if v.psn then hold v.bits else hold (tokenIn toks .bounds)

/-- The effect of STC (R284). Its flags are formed once every earlier access of the thread is performed, each with the count of its channel
then. -/
def State.stcBody (place : BitVec 16) (o : BitVec 2) (s : State) (iss : Iss) (os : List Opd) : State :=
  let v (l : Nat) : Val := laneOf (os.getD 2 default).lanes l
  let c := State.ways 8 8 true (laneAddr place (os.getD 0 default) (os.getD 1 default) iss.xoff) (lanesOf iss.act) s []
  let as := c.2
  let fs := c.1.stcFaults iss.chan (fun l => !(v l).psn) as
  let t := c.1.tokensFor iss.pc fs
  let outs := as.map fun a => (a, t.1.laneStc iss.chan t.2 (v a.lane) a)
  let ok := outs.filterMap fun o => match o.2 with
    | .send _ _ => some o.1
    | .held _ => none
  let s := if o = 3#2 then t.1.seqFence (scopeOf iss.scope ok) else t.1
  let s := s.holdLanes iss place o.toNat false (outs.filterMap fun o => match o.2 with
    | .held h => some h
    | .send _ _ => none) []
  outs.foldl (fun s o => match o.2 with
    | .held _ => s
    | .send n off =>
      let count := ((s.fabric.send.find? fun x => x.node == n && x.chan == iss.chan).map SendChan.count).getD 0#32
      let job : FlagSend :=
        { id := s.nextId, warp := s.warp.ref, node := n
          pkt := { src := s.fabric.node, chan := iss.chan, off := off, value := joinWords (v o.1.lane).bits count, count := count } }
      { s with nextId := s.nextId + 1 }.modFab fun f => { f with sends := f.sends ++ [job] }) s
/-- STC (R283, R284). Whatever its scope, it waits for every earlier access of its thread, after its issue (R236). -/
def execStc (d a : BitVec 8) (p o : BitVec 2) (s : State) : Out :=
  .next (s.issue (.stc d a p o) { reads := pairCodes a ++ [d], slotA := pairCodes a, slotB := [d] } s.myLaunch.paired
      (s.warp.acquiring || s.countingCopy) fun s iss os =>
    if s.released s.warp.ref true then State.stcBody (s.warp.placeOf p) o s iss os else s.hold (.stc d a p o) [] [] iss os 0)

/-! ## The access that a warp has issued and that waits (R236) -/

/-- Whether the ordered access or FENCE that the issuing warp has issued may be performed now. -/
def State.heldReady (s : State) : Bool :=
  match s.warp.held with
  | none => false
  | some h =>
    let s := s.modFocus fun w => { w with held := none }
    match h.i with
    | .ld _ _ p _ o _ _ => !s.orderWaits (o == 3#2) (s.scopeFor h.scope (s.warp.placeOf p))
    | .st _ _ p _ o _ => !s.orderWaits (o == 3#2) (s.scopeFor h.scope (s.warp.placeOf p)) && !s.storeFull h.lines
    | .atom _ _ p _ _ _ => !s.orderWaits false (s.scopeFor h.scope (s.warp.placeOf p))
    | .atomn _ _ p _ _ _ => !s.orderWaits false (s.scopeFor h.scope (s.warp.placeOf p)) && !s.storeFull h.lines
    | .fence k sc => !s.fenceWaits k (fenceScope sc)
    | .stc _ _ _ _ => s.released s.warp.ref true
    | _ => true
/-- It is performed. -/
def State.performHeld (s : State) : State :=
  match s.warp.held with
  | none => s
  | some h =>
    let s := s.modFocus fun w => { w with held := none }
    let lat := 20 + Config.latency s.tick
    match h.i with
    | .ld d _ p sz o x _ => s.asIssued h lat (State.ldBody d p sz o x)
    | .st _ _ p sz o _ => s.asIssued h 0 (State.storeBody (pairAddr (s.warp.placeOf p)) 2 (2 ^ sz.toNat) o.toNat)
    | .atom v _ p op ord w => s.asIssued h (24 + lat) (State.atomBody (oldCodes w v) v (s.warp.placeOf p) op w ord true)
    | .atomn v _ p op ord w => s.asIssued h 0 (State.atomBody [] v (s.warp.placeOf p) op w ord false)
    | .fence k sc => s.asIssued h 0 fun s _ _ => s.fenceBody k sc
    | .stc _ _ p o => s.asIssued h 0 (State.stcBody (s.warp.placeOf p) o)
    | _ => s

/-- Whether index `i` is at or below count `c` of its channel. -/
def indexCovered (c i : Word) : Bool := decide (0 ≤ (c - i).toInt)
/-- Every counted write that a flag covers has left the bridge die, and so has every earlier flag of its warp (R284). -/
def State.mayFlag (s : State) (j : FlagSend) : Bool :=
  !(s.fabric.sends.any fun k => k.warp == j.warp && decide (k.id < j.id))
    && !(s.cores.any fun c => c.storeQ.any fun e => match e.act with
      | .remote n p => n == j.node && p.chan == j.pkt.chan && indexCovered j.pkt.count p.index
      | _ => false)
    && !(s.copies.any fun c => c.dir == 4 && !c.finished && c.chan == j.pkt.chan && (match c.record with
      | some bs => (parseRec bs).dnode == j.node && indexCovered j.pkt.count (c.idx0 + BitVec.ofNat 32 c.sent)
      | none => false))
/-- STC_FLAG_SEND (R284). -/
def execStcFlagSend (job : Nat) (s : State) : Out :=
  .next (match s.fabric.sends.find? fun j => j.id == job with
    | none => s
    | some j =>
      if s.mayFlag j then
        ((s.modFab fun f => { f with sends := f.sends.filter fun k => k.id != job }).dropPeers j.node j.pkt.off).send (.flag j.node j.pkt)
      else s)

/-! ## WAITV -/

/-- COND of WAITV on the word and the comparand (R294). -/
def waitCond (c : Nat) (x y : Word) : Bool :=
  match c with
  | 0 => x == y
  | 1 => x != y
  | 2 => decide (y.toInt ≤ x.toInt)
  | 3 => decide (x.toInt < y.toInt)
  | 4 => decide (y.toNat ≤ x.toNat)
  | _ => decide (x.toNat < y.toNat)

/-- Change the pending WAITV of the issuing warp. -/
def State.modWait (s : State) (f : WaitV → WaitV) : State := s.modFocus fun w => { w with waitv := f w.waitv }
/-- Lane `l` finishes with a result. -/
def WaitV.finish (v : WaitV) (l : Nat) (x : Val) : WaitV :=
  { v with fin := v.fin ||| (1#32 <<< l), vals := updAt v.vals l fun _ => x }
/-- The token of a cause of the pending WAITV: one for each cause of the instruction (R215). -/
def State.waitToken (s : State) (c : Cause) (o : Origin) : State × Word :=
  match s.warp.waitv.toks.find? fun t => t.1 == c with
  | some t => (s, t.2)
  | none =>
    let r := s.mkToken s.myTag c o
    (r.1.modWait fun v => { v with toks := v.toks ++ [(c, r.2)] }, r.2)
/-- The pending result that a WAITV will write. -/
def Warp.waitRes (w : Warp) : Option PendRes := w.pend.getLast?
/-- The PC of the waiting instruction. -/
def Warp.waitPc (w : Warp) : DWord := (w.waitRes.map PendRes.pc).getD 0#64

/-- A test of one lane has read `x` (R295). -/
def State.waitRead (s : State) (l : Nat) (x : Val) : State :=
  let v := s.warp.waitv
  if x.psn || waitCond v.cond x.bits (laneOf v.vals l).bits then
    (if v.acq then s.acquire s.myDie v.scope else s).modWait fun v => v.finish l x
  else s

/-- The write of VAL at completion (R295). -/
def State.waitEnd (s : State) : State :=
  let v := s.warp.waitv
  let lo := lanes32 fun l => laneOf v.vals l
  let hi := lanes32 fun l => let x := laneOf v.vals l; if x.psn then x else Val.zero
  let s := s.modFocus fun w => { w with wait := .none, waitv := WaitV.fresh }
  match s.warp.waitRes with
  | none => s
  | some p => s.arrive { p with words := [lo, hi], shapes := [.g, .g] } p.pc (20 + Config.latency s.tick)
/-- The WAITV ends if every lane has finished, or if its deadline has passed and no test is in progress (R295). -/
def State.waitSettle (s : State) : State :=
  let v := s.warp.waitv
  let open' := s.warp.waitMask &&& ~~~ v.fin
  if open' = 0#32 then s.waitEnd
  else if v.late && v.tests.isEmpty then
    let t := s.waitToken .waitTimeout (s.here open' s.warp.waitPc)
    (t.1.modWait fun v => (lanesOf open').foldl (fun v l => v.finish l (Val.poison t.2)) v).waitEnd
  else s

/-- Ask another node or the host for the word of lane `l`. -/
def State.waitAsk (s : State) (l node : Nat) (off raw : DWord) (place : BitVec 16) : State :=
  let v := s.warp.waitv
  let r : Request :=
    { id := s.nextId, warp := s.warp.ref, res := none, copy := none, queue := none, lanes := [l], node := node, off := off, raw := raw, place := place
      size := 4, sub := none, atom := none, issued := s.ctr s.myDie, die := s.myDie, tag := s.myTag, pc := s.warp.waitPc
      heldSeq := s.warp.region.heldSeq }
  let s := { s with nextId := s.nextId + 1 }.modFab fun f => { f with requests := f.requests ++ [r] }
  let s := s.modWait fun v => { v with tests := v.tests ++ [(l, r.id)] }
  if 10000 ≤ node then s.drainHost.send (.hostRead (s.ctx s.myTag).func (node - 10000) r.id off.toNat 4)
  else s.send (.request node { src := s.fabric.node, chan := v.chan, reqId := r.id, index := 0#32, off := off, size := 4, atom := none })

/-- The word that a location of SPACE 0 of the own node holds for a warp now, where its address translates (R295). -/
def State.waitWord (s : State) (w : Warp) (lane : Nat) : Option Val :=
  let g := (s.wgOf w.ref.wg).getD default
  match resolvePlace s.fabric.node (w.places.getD w.waitv.pl 0#16) (w.waitv.offs.getD lane 0#64) with
  | .own 0 off => match (s.lookupTlb (some g.core) (dieOf g.core) g.tag 0 off false).2 with
    | .leaf t => some (s.wordAt (dieOf g.core) (t.frame + off.toNat % 65536))
    | .fault _ => none
  | _ => none
/-- One test of every lane that is unfinished and has no test in progress (R295). A remote location is read at its node, never from
a peer line. -/
def State.waitTest (s : State) : State :=
  let s := (s.ordered s.warp.ref s.warp.waitMask).modWait fun v => { v with first := false, late := v.late || v.timeout == 0 }
  let s := s.modWait fun v => { v with seen := (List.range 32).map (s.waitWord s.warp) }
  let v := s.warp.waitv
  let pc := s.warp.waitPc
  let place := s.warp.places.getD v.pl 0#16
  let ls := (lanesOf (s.warp.waitMask &&& ~~~ v.fin)).filter fun l => !(v.tests.any fun t => t.1 == l)
  let now := s.ctr s.myDie
  let s := s.modWait fun v => { v with tested := (List.range 32).map fun l => if ls.contains l then now else v.tested.getD l v.start }
  let c := State.ways 4 4 false (fun l => (place, .inr (v.offs.getD l 0#64))) ls s []
  let as := c.2
  let fs := c.1.laneFaults v.chan (fun _ => true) as
  let fresh := fs.filter fun f => !(v.toks.any fun t => t.1 == f.cause)
  let t := (fs.foldl (fun s f => if f.cause = .pageMiss then (s.svcReq s.myTag f.space f.xoff { s.here (1#32 <<< f.lane) pc with addr := some (f.off, f.place) }).1 else s)
    c.1).tokensFor pc fresh
  let s := t.1.modWait fun v => { v with toks := v.toks ++ t.2 }
  let toks := s.warp.waitv.toks
  let p := s.prepare pc true (as.filter fun a => !(fs.any fun f => f.lane == a.lane)) toks
  let met := [Cause.eccUncorrectable, .injected].filterMap fun c => (p.2.find? fun x => tokenCause x.2 == c.code).map fun x => (c, x.2)
  let s := p.1.modWait fun v => { v with toks := v.toks ++ met.filter fun t => !(v.toks.any fun u => u.1 == t.1) }
  let die := s.myDie
  let held := s.heldOf
  (as.foldl (fun s a =>
    match fs.find? fun f => f.lane == a.lane with
    | some f => s.modWait fun v => v.finish a.lane (Val.poison (tokenIn toks f.cause))
    | none => match a.way with
      | .mem _ ps => s.waitRead a.lane ((s.readLane die p.2 held a ps none).headD Val.zero)
      | .host port hpa => s.waitAsk a.lane (hostNode port) (BitVec.ofNat 64 hpa) a.off place
      | .remote n off => s.waitAsk a.lane n off a.off place
      | _ => s) s).waitSettle

/-- WAITV (R294 to R296). -/
def execWaitv (v a : BitVec 8) (p : BitVec 2) (c : BitVec 4) (o : BitVec 2) (s : State) : Out :=
  let i : Instr := .waitv v a p c o
  let place := s.warp.placeOf p
  .next (s.issue i
      ({ reads := pairCodes a ++ pairCodes v, slotA := pairCodes a, slotB := pairCodes v, dsts := pairCodes v, point := true } : Form).loads
      false s.warp.acquiring fun s iss os =>
    let word (k l : Nat) : Val := laneOf (os.getD k default).lanes l
    let t := word 3 iss.act.lowest
    if t.psn then s.deliver iss.act iss.pc (pairCodes v) [splat (Val.poison t.bits), splat (Val.poison t.bits)] [.g, .g]
    else
      let addr := laneAddr place (os.getD 0 default) (os.getD 1 default) iss.xoff
      let id := s.nextId
      let s := { s with nextId := id + 1 }.awaitResult
        { id := id, dsts := pairCodes v, words := [splat Val.zero, splat Val.zero], mask := iss.act, left := iss.act
          shapes := [.g, .g], pc := iss.pc, faults := [], flags := false, acq := false, wideAcq := false, dropped := false }
      let now := s.ctr s.myDie
      let w0 : WaitV :=
        { dst := v, cond := c.toNat, acq := o == 1#2, scope := 0, pl := p.toNat, chan := iss.chan, timeout := t.bits.toNat, start := now
          offs := (List.range 32).map fun l => (match (addr l).2 with
            | .inr off => off
            | .inl _ => 0#64)
          vals := lanes32 fun l => word 2 l, fin := 0#32, tests := [], late := false, toks := [], first := true, seen := [] }
      -- a lane with a poisoned address or comparand is finished, unless a later row of R215 gives it a token first (R117)
      let w1 := (lanesOf iss.act).foldl (fun w l => match (addr l).2 with
        | .inl t => w.finish l (Val.poison t)
        | .inr _ => w) w0
      let open' := (lanesOf iss.act).filter fun l => !w1.fin.has l
      let c0 := State.ways 4 4 false addr open' s []
      let bad := c0.1.laneFaults iss.chan (fun _ => true) c0.2
      let w2 := open'.foldl (fun w l =>
        if (word 2 l).psn && !(bad.any fun f => f.lane == l) then w.finish l (word 2 l) else w) w1
      let okLanes := c0.2.filter fun x => !w2.fin.has x.lane && !(bad.any fun f => f.lane == x.lane)
      let s := c0.1.modFocus fun w => { w.waiting i iss.act .waitv with waitv := { w2 with scope := scopeOf iss.scope okLanes } }
      s.waitTest)

/-- Whether a warp has a WAITV that may act. -/
def Warp.waitsValue (w : Warp) : Bool := w.status == .running && w.wait == .waitv
/-- Whether a WAITV may start another test: its first, or one before its deadline (R295, R296). -/
def State.mayTest (s : State) (w : Warp) : Bool :=
  w.waitsValue && (w.waitv.first || (!w.waitv.late
      && decide (s.ctr (dieOf (s.coreOf w.ref.wg)) < w.waitv.start + w.waitv.timeout * 1024)))
    && (lanesOf (w.waitMask &&& ~~~ w.waitv.fin)).any fun l => !(w.waitv.tests.any fun t => t.1 == l)
/-- The cycles within which a lane's location is tested again: 4,096 on the own node, 8,192 on another (R295). -/
def State.testSpan (s : State) (w : Warp) (lane : Nat) : Nat :=
  match resolvePlace s.fabric.node (w.places.getD w.waitv.pl 0#16) (w.waitv.offs.getD lane 0#64) with
  | .node _ _ => 8192
  | _ => 4096
/-- A lane of a WAITV is to be tested by now, since its last test began its span ago; where the device's time has passed the deadline too, the
test that fell due before it is still made (R295; log 87). -/
def State.spanOver (s : State) (w : Warp) (lane : Nat) : Bool :=
  let due := w.waitv.tested.getD lane w.waitv.start + s.testSpan w lane
  w.waitsValue && !w.waitv.late && !w.waitv.first && decide (due ≤ s.ctr (dieOf (s.coreOf w.ref.wg)))
    && decide (due < w.waitv.start + w.waitv.timeout * 1024)
/-- Whether a WAITV is to test again at once: a write has been applied to the line of an unfinished lane, whose word is not the one the last test
read, or the span of a lane's last test is over (R295). -/
def State.retestDue (s : State) (w : Warp) : Bool :=
  w.waitsValue && !s.killRaised ((s.wgOf w.ref.wg).getD default).tag && (lanesOf (w.waitMask &&& ~~~ w.waitv.fin)).any fun l =>
    !(w.waitv.tests.any fun t => t.1 == l)
      && (s.mayTest w && (s.waitWord w l).isSome && !(w.waitv.seen.getD l none == s.waitWord w l) || s.spanOver w l)
/-- WAITV_TEST (R295). -/
def execWaitvTest (w : WarpRef) (s : State) : Out :=
  .next (match s.getWarp w with
    | none => s
    | some x => if s.mayTest x then s.asWarp w State.waitTest else s)
/-- WAITV_TIMEOUT (R295): T × 1,024 cycles have passed; no new test starts, and tests in progress complete. -/
def execWaitvTimeout (w : WarpRef) (s : State) : Out :=
  .next (match s.getWarp w with
    | none => s
    | some x =>
      if x.waitsValue && !x.waitv.late && !x.waitv.first && decide (x.waitv.start + x.waitv.timeout * 1024 ≤ s.ctr (dieOf (s.coreOf w.wg))) then
        s.asWarp w fun s => (s.modWait fun v => { v with late := true }).waitSettle
      else s)

end Sys2Proof.Machine
end

