-- ==== Sys2Proof/Machine/Answer.lean ====
section
/-!
DEFINITION. Results that arrive after their issue (R53) and the answers of other nodes and of the host (R266 to R269, R293, R416),
with the events of store queues and views: STORE_DRAIN, WRITE_APPLY, BACK_INVALIDATE_RESPONSE and TRANSLATION_WALK.
-/
namespace Sys2Proof.Machine
open Sys2Proof

/-! ## Arrival of a result -/

/-- Insert a fault in lane order. -/
def insertFault (f : LaneFault) : List LaneFault → List LaneFault
  | [] => [f]
  | g :: gs => if f.lane < g.lane then f :: g :: gs else g :: insertFault f gs

/-- Whether an answer's cause was met at another node, for the REMOTE flag (R376). -/
def metRemotely (c : Cause) (space : Nat) : Bool := c != .waitTimeout && space != 2

/-- A token reaches the words of some lanes, and all of VAL of a CAS (R215). -/
def PendRes.poisonLanes (p : PendRes) (m : Mask) (t : Word) : PendRes :=
  { p with words := p.words.map fun ws => withToken m t ws
           swap := p.swap.map fun x => (x.1, withToken m t x.2)
           half := if p.swap.isEmpty then p.half else p.half ||| m }

/-- The causes of a result's answers become tokens, one for each cause of the instruction, in lane order; for an atomic a fault met at its
target is a flag event that sets no SREQ (R215, R269, R416). -/
def State.settleFaults (s : State) (p : PendRes) : State × PendRes :=
  let go (r : State × PendRes × List Cause) (f : LaneFault) : State × PendRes × List Cause :=
    if r.2.2.contains f.cause then r
    else
      let mine := p.faults.filter fun g => g.cause == f.cause
      let m := maskOfLanes (mine.map LaneFault.lane)
      let t := match p.toks.find? fun x => x.1 == f.cause with
        | some x => (r.1, x.2)
        | none => r.1.mkToken s.myTag f.cause
            { s.here m p.pc with addr := some (f.off, f.place), remote := metRemotely f.cause f.space }
      let s := if p.flags && f.cause != .waitTimeout then
          t.1.modFocus fun w => { w with region := w.region.count [f.cause.code] (some t.2) w.region.sreq }
        else t.1
      (s, r.2.1.poisonLanes m t.2, r.2.2 ++ [f.cause])
  let r := p.faults.foldl go (s, p, [])
  (r.1, r.2.1)

/-- RESULT_ARRIVAL (R53): a relaxed load that has issued is performed (R222; log 72), or a result whose every lane has come reaches its latch position and its destinations. An acquire takes
effect first (R201, R222). -/
def execResultArrival (res : Nat) (s : State) : Out :=
  .next (match s.allWarps.find? fun w => w.pend.any fun p => p.id == res with
    | none => s
    | some w =>
      match w.pend.find? fun p => p.id == res with
      | none => s
      | some p =>
        if p.left != 0#32 then (match w.late.find? fun h => h.res == some res with
          | some h => s.asWarp w.ref fun s => s.performLoad h
          | none => s)
        else s.asWarp w.ref fun s =>
          let r := s.settleFaults p
          (if p.wideAcq then r.1.acquire r.1.myDie 6 else r.1).arrive r.2 p.pc (p.issued + p.least - r.1.ctr r.1.myDie))

/-! ## Answers -/

/-- What an answer brings: the words, or a cause and the space in which it was met. -/
inductive Answer where
  | words (vs : List Val)
  | fault (c : Cause) (space : Nat)
  deriving DecidableEq, Repr, Inhabited

/-- The held entries that stood when a load of a paired launch issued (R389). -/
def State.heldFor (s : State) (r : Request) : List RackEntry :=
  if (s.launchOf ((s.wgOf r.warp.wg).getD default).launch).paired then
    (s.rackOf r.warp).filter fun e => decide (e.seq < r.heldSeq)
  else []

/-- The words that an answer gives a lane, with held bytes over them and a sub-word value extended. -/
def State.laneWords (s : State) (r : Request) (vs : List Val) : List Val :=
  let held := s.heldFor r
  let k := match r.sub with
    | some (n, _) => n
    | none => 4
  (List.range ((r.size + 3) / 4)).map fun i =>
    let v := mergeHeld ((List.range k).map fun j => heldByte s.fabric.node held r.warp r.place (r.raw.toNat + 4 * i + j)) (vs.getD i Val.zero)
    match r.sub with
    | some (n, sx) => if v.psn then v else Val.clean (extend n sx (v.bits.toNat % 2 ^ (8 * n)))
    | none => v

/-- Put words into the lanes of a pending result. -/
def PendRes.fill (p : PendRes) (lanes : List Nat) (vs : List Val) : PendRes :=
  let m := maskOfLanes lanes
  { p with left := p.left &&& ~~~ m
           words := (List.range p.words.length).map fun i => mergeLanes m (splat (vs.getD i Val.zero)) (p.words.getD i []) }
/-- Change a pending result of a warp. -/
def State.modPend (s : State) (w : WarpRef) (res : Nat) (f : PendRes → PendRes) : State :=
  s.modWarp w fun x => { x with pend := x.pend.map fun p => if p.id = res then f p else p }

/-- The answer to a copy's read of a source sector (R245). -/
def State.answerCopy (s : State) (id : Nat) (r : Request) (a : Answer) : State :=
  match s.copies.find? fun c => c.id == id with
  | none => s
  | some c =>
    let c := { c with asked := c.asked.filter fun x => x.1 != r.id }
    match a with
    | .words vs => s.putCopy (c.keep r.raw ((List.range 8).map fun i => vs.getD i Val.zero))
    | .fault k sp =>
      let t := s.copyToken c k sp r.raw r.place (metRemotely k sp)
      t.1.putCopy (t.2.1.keep r.raw (poisonSector t.2.2))

/-- The answer to a test of a WAITV (R295): the warp is in the issuing place. -/
def State.answerTest (s : State) (r : Request) (a : Answer) : State :=
  let l := r.lanes.headD 0
  if !(s.warp.waitv.tests.any fun t => t.2 == r.id) then s
  else
    let s := s.modWait fun v => { v with tests := v.tests.filter fun t => t.2 != r.id }
    match a with
    | .words vs => (s.waitRead l ((s.laneWords r vs).headD Val.zero)).waitSettle
    | .fault c sp =>
      let t := s.waitToken c { s.here (1#32 <<< l) s.warp.waitPc with addr := some (r.raw, r.place), remote := metRemotely c sp }
      (t.1.waitRead l (Val.poison t.2)).waitSettle

/-- The answer to a lane of an ATOMN, which writes no result: a completion that fails, or old data that is poisoned, is a flag event of the
warp (R215, R269). The lanes of one instruction share the token of a cause. -/
def State.answerAtomn (s : State) (r : Request) (a : Answer) : State :=
  match a with
  | .words vs => match firstPoison vs with
    | some t => s.flagTokens r.tag r.warp [t]
    | none => s
  | .fault c sp => s.asWarp r.warp fun s =>
    let t := match r.toks.find? fun x => x.1 == c with
      | some x => (s, x.2)
      | none => s.mkToken s.myTag c
          { s.here (maskOfLanes r.lanes) r.pc with addr := some (r.raw, r.place), remote := metRemotely c sp }
    let mine (x : Request) : Bool := x.warp == r.warp && x.pc == r.pc && x.issued == r.issued && x.atom.isSome && x.res.isNone
    let share (x : Request) : Request := if mine x && r.toks.all (fun y => y.1 != c) then { x with toks := (c, t.2) :: x.toks } else x
    (t.1.modFab fun f => { f with requests := f.requests.map share }).flagMine [t.2]

/-- Whether a request went to another node. -/
def Request.isRemote (r : Request) : Bool := decide (r.node < 10000)
/-- An answer reaches what asked for it; a host atomic that waited for it is sent (R216). One for a context whose kill has begun reaches nothing
(R367). -/
def State.answer (s : State) (r : Request) (a : Answer) : State :=
  let s := s.modFab fun f => { f with requests := f.requests.filter fun x => x.id != r.id }
  let s := if r.atom.isSome && !r.isRemote then s.nextAtom r else s
  if !(s.ctx r.tag).live then s
  else match r.copy with
  | some id => s.answerCopy id r a
  | none =>
    match r.res with
    | none => if r.atom.isSome then s.answerAtomn r a else s.asWarp r.warp fun s => s.answerTest r a
    | some res =>
      match a with
      | .words vs =>
        let wide := r.size == 8
        let vs := match r.atom with
          | none => s.laneWords r vs
          | some _ => match firstPoison vs with
            | some t => List.replicate (if wide then 2 else 1) (Val.poison t)
            | none => vs
        let s := s.modPend r.warp res fun p => p.fill r.lanes vs
        match r.atom, firstPoison vs with
        | some _, some t => (s.modPend r.warp res fun p => p.poisonLanes (maskOfLanes r.lanes) t).flagTokens r.tag r.warp [t]
        | _, _ => s
      | .fault c sp =>
        let note (l : Nat) : LaneFault :=
          { lane := l, cause := c, place := r.place, off := r.raw, space := sp, xoff := r.off }
        s.modPend r.warp res fun p =>
          { p.fill r.lanes [] with faults := r.lanes.foldl (fun fs l => insertFault (note l) fs) p.faults }

/-- A request of the device by its name; one that must follow another atomic has not been sent and has no answer yet (R216). -/
def State.requestOf (s : State) (req : Nat) : Option Request :=
  s.fabric.requests.find? fun r => r.id == req && !(!r.isRemote && r.atom.isSome && s.behindAtom r)

/-- A peer line that the answer to a load may leave in the die's L2, in place of another where there is no room (R201; log 45). -/
def State.keepPeer (s : State) (r : Request) (line : List Byte) : State :=
  if r.copy.isSome || r.atom.isSome || r.res.isNone || Config.choice s.tick % 2 = 0 then s
  else
    let o := r.off.toNat / 128 * 128
    let l : PeerLine :=
      { die := r.die, node := r.node, off := o, tag := r.tag
        data := (List.range 32).map fun i => Val.clean (BitVec.ofNat 32 (numAt line (4 * i) 4)) }
    let other (p : PeerLine) : Bool := !(p.die == r.die && p.node == r.node && p.off == o && p.tag == r.tag)
    let kept := s.mem.peers.filter other
    let room := if Config.choice (s.tick + 1) % 2 = 0 then kept else kept.eraseIdx (Config.choice (s.tick + 1) % (kept.length + 1))
    s.modMem fun d => { d with peers := l :: room }

/-- The 20 µs of R293 in core-clock periods of 1,900 MHz (R10). -/
def responseCycles : Nat := 38000
/-- Whether a request to another node has waited for 20 µs (R293). -/
def State.overdue (s : State) (r : Request) : Bool := r.isRemote && decide (r.issued + responseCycles ≤ s.ctr r.die)
/-- REMOTE_RESPONSE_ARRIVAL (R293, R416). One that nothing waits for, or that comes after the 20 µs, is discarded. -/
def execRemoteResponseArrival (req : Nat) (rep : Reply) (s : State) : Out :=
  .next (match s.requestOf req with
    | none => s
    | some r =>
      if !r.isRemote || s.overdue r then s
      else match rep with
        | .fault c => s.answer r (.fault c 0)
        | .data vs peer =>
          let s := match peer with
            | some line => s.keepPeer r line
            | none => s
          s.answer r (.words vs))

/-- REMOTE_RESPONSE_TIMEOUT (R293). -/
def execRemoteResponseTimeout (req : Nat) (s : State) : Out :=
  .next (match s.requestOf req with
    | none => s
    | some r => if s.overdue r then s.answer r (.fault .waitTimeout 0) else s)

/-- An atomic on a host line that the device holds in CXL mode (R224, R268): the line it writes back, and the old words. -/
def lineAtomic (a : AtomOp) (hpa : Nat) (line : List Byte) : List Byte × List Val :=
  let n := if a.wide then 8 else 4
  let k := hpa % line.length
  let old := numAt line k n
  let new := natLE n (atomApply a old)
  ((List.range line.length).map fun i => if k ≤ i ∧ i < k + n then new.getD (i - k) 0#8 else line.getD i 0#8, oldWords a.wide old)
/-- GLOBAL_OBSERVATION_RESPONSE (R268): a write has been observed, or a line that an atomic asked for has come. -/
def execGlobalObservationResponse (req : Nat) (line : Option (List Byte)) (s : State) : Out :=
  .next (match line with
    | none => s.modSvc fun v => { v with observing := v.observing.filter fun o => o.1 != req }
    | some bs =>
      match s.requestOf req with
      | none => s
      | some r =>
        match r.atom with
        | none => s
        | some a =>
          let q := lineAtomic a r.off.toNat bs
          (s.send (.hostLinePut (s.ctx r.tag).func (r.node - 10000) (r.off.toNat / bs.length * bs.length) q.1)).answer r (.words q.2))

/-! ## Store queues, views and walks -/

/-- The line of device memory that a store entry writes, where a host may cache it (R268). -/
def State.hostLine (s : State) (e : StoreEntry) : Option Nat :=
  match e.act with
  | .mem w => if (s.locate w.addr).isNone && (w.addr / 128) ∈ s.svc.directory then some (w.addr / 128) else none
  | _ => none
/-- STORE_DRAIN (R236, R260): entry `k` of a core's queue leaves. A line that the host may cache is back-invalidated first, and the
write waits for the response (R268). -/
def execStoreDrain (core k : Nat) (s : State) : Out :=
  .next (
    let q := (s.coreAt core).storeQ
    if !mayDrain q k then s
    else match q[k]? with
      | none => s
      | some e =>
        match s.hostLine e with
        | none => s.drainEntry core k
        | some line =>
          if s.svc.backInv.any fun b => b.2 == line then s
          else
            let n := s.nextId
            (s.send (.backInvalidate n line)).modSvc fun v => { v with backInv := v.backInv ++ [(n, line)] })
/-- BACK_INVALIDATE_RESPONSE (R268): the host no longer holds the line. -/
def execBackInvalidateResponse (job : Nat) (s : State) : Out :=
  .next (match s.svc.backInv.find? fun b => b.1 == job with
    | none => s
    | some b => s.modSvc fun v =>
        { v with backInv := v.backInv.filter fun x => x.1 != job, directory := v.directory.filter fun l => l != b.2 })
/-- WRITE_APPLY (R262, R263): die `die` applies write `k` of the log. -/
def execWriteApply (die k : Nat) (s : State) : Out :=
  .next (if s.mem.mayApply die k then s.modMem fun d => d.applyOne die k else s)
/-- TRANSLATION_WALK (R193 to R195) on behalf of a context that is live: a page that is not there queues its request (R398), and the walk's own
reads meet what they meet (R195, R396). -/
def execTranslationWalk (tag space : Nat) (off : DWord) (write : Bool) (s : State) : Out :=
  .next (if !(s.ctx tag).live || decide (3 ≤ space) then s
    else
      let l := s.lookup none 4 tag space off write
      match l.2 with
      | .fault .pageMiss => (l.1.svcReq tag space off (Origin.device 4)).1
      | _ => l.1)

end Sys2Proof.Machine
end

