-- ==== Sys2Proof/Machine/Fabric.lean ====
section
/-!
DEFINITION. What arrives from other nodes (R266, R276 to R293, R416): counted writes, release flags, loss notices and accesses, with
the Easel's holding, writing and expiry of flags.
-/
namespace Sys2Proof.Machine
open Sys2Proof

/-! ## Receive channels -/

/-- A receive channel that some context owns (R279, R280). -/
def State.recvOf (s : State) (node chan : Nat) : Option RecvChan := s.fabric.recv.find? fun c => c.node == node && c.chan == chan
/-- Change a receive channel. -/
def State.modRecv (s : State) (node chan : Nat) (f : RecvChan → RecvChan) : State :=
  s.modFab fun x => { x with recv := x.recv.map fun c => if c.node = node ∧ c.chan = chan then f c else c }
/-- Counter A of a receive channel, which is kept whether a context owns the channel or not (R278). -/
def State.arrivals (s : State) (node chan : Nat) : Word :=
  match s.recvOf node chan with
  | some c => c.count
  | none => idleCount s.fabric.recvIdle node chan
/-- Whether the owner of a channel is being or has been killed (R368). -/
def State.ownerKilled (s : State) (c : RecvChan) : Bool := !(s.ctx c.tag).live
/-- Send a loss notice to a node (R289). -/
def State.sendLoss (s : State) (kind cause node chan : Nat) (count arrival : Word) (off : DWord) : State :=
  s.send (.loss node
    { kind := kind, cause := cause, node := s.fabric.node, chan := chan, count := count, arrival := arrival, off := off })
/-- The distance of a flag, read signed, is 0 or more (R285). -/
def flagMet (arrival count : Word) : Bool := decide (0 ≤ (arrival - count).toInt)

/-! ## Flags -/

/-- The AUX word of a LOST_WRITES token (R376). -/
def lostAux (src chan : Nat) : Word := BitVec.ofNat 32 (src % 2 ^ 13 + chan % 16 * 2 ^ 16)
/-- The cause that a flag is written with as poison: the recorded one, or LOST_WRITES once it has expired (R282, R286, R288). -/
def flagCause (c : RecvChan) (h : HeldFlag) : Option (Cause × Word) :=
  match c.cause with
  | some k => some k
  | none => if h.expired then some (.lostWrites, lostAux h.pkt.src h.pkt.chan) else none
/-- Free the entry of a flag. -/
def State.freeFlag (s : State) (h : HeldFlag) : State :=
  s.modFab fun f => { f with easel := f.easel.filter (fun x => x.id != h.id), waiting := f.waiting.filter fun x => x.id != h.id }
/-- A matched flag waits for the service of its address, and takes no Easel entry (R285, R286). -/
def State.keepFlag (s : State) (h : HeldFlag) : State :=
  (s.freeFlag h).modFab fun f => { f with waiting := f.waiting ++ [h] }
/-- Write a flag, by the table of R286; the poisoned writes of R288 follow it too. -/
def State.writeFlag (s : State) (h : HeldFlag) : State :=
  let p := h.pkt
  match s.recvOf p.src p.chan with
  | none => s.freeFlag h
  | some c =>
    let o := { Origin.device 4 with addr := some (p.off, 0xFFF8#16), remote := true }
    let l := s.lookup none 4 c.tag 0 p.off true
    let s := l.1
    match l.2 with
    | .fault .pageMiss =>
      let r := s.svcReq c.tag 0 p.off o
      r.1.keepFlag { h with matched := some r.2 }
    | .fault k => (s.sendLoss 2 k.code p.src p.chan p.count c.count p.off).freeFlag h
    | .leaf t =>
      let pa := t.frame + p.off.toNat % 65536
      match flagCause c h with
      | some (k, aux) =>
        let r := s.mkToken c.tag k { o with aux := aux }
        ((r.1.modRecv p.src p.chan fun c => { c with cause := none }).physWrite 4 c.tag (sectorPoison pa r.2)).freeFlag h
      | none => (s.physWrite 4 c.tag (sectorBytes pa (natLE 8 p.value.toNat))).freeFlag h

/-- Insert a flag by increasing count below `arrival`, after those of equal count (R286). -/
def insertFlag (arrival : Word) (h : HeldFlag) : List HeldFlag → List HeldFlag
  | [] => [h]
  | g :: gs =>
    if (arrival - g.pkt.count).toNat < (arrival - h.pkt.count).toNat then h :: g :: gs else g :: insertFlag arrival h gs
/-- Write every held flag of a channel whose distance has become 0 or more (R285). -/
def State.releaseFlags (s : State) (node chan : Nat) : State :=
  match s.recvOf node chan with
  | none => s
  | some c =>
    let met := s.fabric.easel.filter fun h => h.pkt.src == node && h.pkt.chan == chan && flagMet c.count h.pkt.count
    (met.foldl (fun l h => insertFlag c.count h l) []).foldl State.writeFlag s

/-- The Easel's entries (R287). -/
def easelSize : Nat := 2048
/-- The flag lane is held back at the links: the Easel is full, or an earlier arrival waits there (R287). -/
def State.flagsBlocked (s : State) : Bool := decide (easelSize ≤ s.fabric.easel.length) || !s.fabric.link.isEmpty

/-- A flag is accepted (R280, R285, R368). CAUSE of a loss notice of type 4 is 0, since no poison is written and no fault is met (R289; log 82). -/
def State.takeFlag (s : State) (p : FlagPacket) : State :=
  match s.recvOf p.src p.chan with
  | none => s.sendLoss 4 0 p.src p.chan p.count (s.arrivals p.src p.chan) p.off
  | some c =>
    if s.ownerKilled c then s.sendLoss 4 0 p.src p.chan p.count c.count p.off
    else
      let h : HeldFlag := { id := s.nextId, pkt := p, entered := s.ctr 4, matched := none, expired := false }
      let s := { s with nextId := s.nextId + 1 }
      if flagMet c.count p.count then s.writeFlag h else s.modFab fun f => { f with easel := f.easel ++ [h] }
/-- The bytes of a loss notice (R289). -/
def lossBytes (n : LossNotice) : List Byte :=
  natLE 1 n.kind ++ natLE 1 n.cause ++ natLE 2 n.node ++ natLE 1 n.chan ++ [0#8, 0#8, 0#8] ++ natLE 4 n.count.toNat
    ++ natLE 4 n.arrival.toNat ++ natLE 8 n.off.toNat ++ List.replicate 8 0#8
/-- A loss notice is accepted: it goes to the event queue of the context that owns the send channel (R289). -/
def State.takeLoss (s : State) (n : LossNotice) : State :=
  match s.fabric.send.find? fun c => c.node == n.node && c.chan == n.chan with
  | none => s
  | some c => s.pushRecord c.tag (lossBytes n)
/-- An arrival on the flag lane is accepted or held back. -/
def State.flagLane (s : State) (i : Instr) : State :=
  if s.flagsBlocked then s.modFab fun f => { f with link := f.link ++ [i] }
  else match i with
    | .flagArrival p => s.takeFlag p
    | .lossNoticeArrival n => s.takeLoss n
    | _ => s
/-- Accept what the links hold back, as far as the Easel has room (R287). -/
def State.admitLink (s : State) : State :=
  if decide (easelSize ≤ s.fabric.easel.length) then s
  else s.fabric.link.foldl State.flagLane (s.modFab fun f => { f with link := [] })

/-- The flags for which `f` holds are not written: each gives a loss notice of type 4 with CAUSE 0, and what the links hold back follows
(R287, R368; log 34, log 82). -/
def State.refuseHeld (s : State) (f : HeldFlag → Bool) : State :=
  ((s.fabric.easel ++ s.fabric.waiting).filter f).foldl (fun s h =>
      s.sendLoss 4 0 h.pkt.src h.pkt.chan h.pkt.count (s.arrivals h.pkt.src h.pkt.chan) h.pkt.off)
    (s.modFab fun x => { x with easel := x.easel.filter (fun h => !f h), waiting := x.waiting.filter fun h => !f h }) |>.admitLink
/-- Take channels from their owners: their counters are kept (R278), and flags held on a receive channel are refused
(log 34). -/
def State.releaseChannels (s : State) (snd : SendChan → Bool) (rcv : RecvChan → Bool) : State :=
  let ss := s.fabric.send.filter snd
  let rs := s.fabric.recv.filter rcv
  let s := s.modFab fun x =>
    { x with send := x.send.filter (fun c => !snd c), recv := x.recv.filter (fun c => !rcv c)
             sendIdle := ss.foldl (fun l c => setIdle l c.node c.chan c.count) x.sendIdle
             recvIdle := rs.foldl (fun l c => setIdle l c.node c.chan c.count) x.recvIdle }
  if rs.isEmpty then s else s.refuseHeld fun h => rs.any fun c => c.node == h.pkt.src && c.chan == h.pkt.chan

/-- FLAG_ARRIVAL (R285). -/
def execFlagArrival (p : FlagPacket) (s : State) : Out := .next (s.flagLane (.flagArrival p))
/-- LOSS_NOTICE_ARRIVAL (R289). -/
def execLossNoticeArrival (n : LossNotice) (s : State) : Out := .next (s.flagLane (.lossNoticeArrival n))
/-- Whether the service request of a matched flag is resolved. -/
def State.flagServed (s : State) (h : HeldFlag) : Bool :=
  match h.matched, s.recvOf h.pkt.src h.pkt.chan with
  | some n, some c => (s.ctx c.tag).resolved n
  | some _, none => true
  | none, _ => false
/-- FLAG_WRITE_RETRY (R286): the write is repeated after service and decided by the table again. -/
def execFlagWriteRetry (job : Nat) (s : State) : Out :=
  .next (match s.fabric.waiting.find? fun h => h.id == job with
    | none => s
    | some h => if s.flagServed h then (s.writeFlag { h with matched := none }).admitLink else s)

/-- Whether a held flag's hold time has passed (R288). -/
def State.flagExpired (s : State) (h : HeldFlag) : Bool :=
  match s.recvOf h.pkt.src h.pkt.chan with
  | some c => decide (h.entered + c.hold * 1900 ≤ s.ctr 4)
  | none => false
/-- FLAG_HOLD_EXPIRY (R288). -/
def execFlagHoldExpiry (job : Nat) (s : State) : Out :=
  .next (match s.fabric.easel.find? fun h => h.id == job with
    | none => s
    | some h =>
      let p := h.pkt
      match s.recvOf p.src p.chan with
      | none => s
      | some c =>
        if !s.flagExpired h then s
        else
          -- the cause of the fault that its write meets, where it meets one: no poison is written then (R289)
          let cause := match (s.lookup none 4 c.tag 0 p.off true).2, flagCause c { h with expired := true } with
            | .fault k, _ => k.code
            | .leaf _, some k => k.1.code
            | .leaf _, none => 0
          let others := s.fabric.easel.filter fun x => x.pkt.src == p.src && x.pkt.chan == p.chan && x.id != job
            && flagMet p.count x.pkt.count
          let s := s.writeFlag { h with expired := true }
          let s := (others.foldl (fun l x => insertFlag p.count x l) []).foldl (fun s x => s.writeFlag { x with expired := true }) s
          let s := s.modRecv p.src p.chan fun c => { c with count := p.count }
          (s.sendLoss 1 cause p.src p.chan p.count c.count p.off).admitLink)

/-! ## Counted writes -/

/-- A counted write is counted (R282). -/
def State.countArrival (s : State) (node chan : Nat) : State := s.modRecv node chan fun c => { c with count := c.count + 1 }
/-- A counted write met a translation fault (R282); `arrival` is A before it. -/
def State.arrivalFault (s : State) (c : RecvChan) (k : Cause) (index arrival : Word) (off : DWord) : State :=
  let o := { Origin.device 4 with addr := some (off, 0xFFF8#16), remote := true }
  let r := if k = .pageMiss then
      let q := s.svcReq c.tag 0 off o
      (q.1, BitVec.ofNat 32 q.2)
    else (s, 0#32)
  (r.1.modRecv c.node c.chan fun x => { x with cause := x.cause <|> some (k, r.2) }).sendLoss 3 k.code c.node c.chan index arrival off

/-- Fill the stash line of an access that arrived from another node: the cause that its fill meets, of which no token is made here (R207, R416). -/
def State.remoteLine (s : State) (die tag pa : Nat) (o : Origin) : State × Option Cause :=
  match s.locate pa with
  | none => (s, none)
  | some (wg, e, line, _) =>
    let base := pa / 128 * 128
    let bad (k : Nat) : Option (Nat × Cause) := match (s.errorAt (base + 32 * k)).map LatentError.kind with
      | some .cleanCopy => some (base + 32 * k, .eccUncorrectable)
      | some .dirtyLine => some (base + 32 * k, .linePoison)
      | _ => none
    if s.lineHeld wg e line then (s, none)
    else match (List.range 4).findSome? bad with
      | some (a, c) => (s.walkError die tag a, some c)
      | none => ((s.readyLine tag o wg e line).1, none)
/-- Make a sector ready for an access that arrived from another node; the cause that the access meets in place of it (R396, R400,
R416). No token of a clean copy's error is made here. An uncorrectable injection makes the entry of its token in the sheet of the receive channel's
owner, and the answer brings the cause INJECTED (R400; log 83). -/
def State.remoteSector (s : State) (die tag mt pa : Nat) (o : Origin) : State × Option Cause :=
  let l := s.remoteLine die tag pa o
  if l.2.isSome then l
  else
    let s := l.1
    if s.injects tag mt pa then
      let r := s.fireInjection tag pa o
      (r.1, r.2.map fun _ => .injected)
    else match s.errorAt pa with
      | none => (s.fillL2 tag mt pa, none)
      | some e =>
        if (s.locate pa).isSome && !e.inCore then (s, none)
        else match e.kind with
        | .corrected => (s.correctError die pa, none)
        | .cleanCopy => ((s.foundError die pa).dropCopy pa, some .eccUncorrectable)
        | .dram => ((s.meetError die tag pa .dram o).1, some .linePoison)
        | .dirtyLine => (s.killOwner die tag pa, some .linePoison)

/-- COUNTED_WRITE_ARRIVAL (R282, R280, R368). -/
def execCountedWriteArrival (p : WritePacket) (s : State) : Out :=
  .next (match s.recvOf p.src p.chan with
    | none => s
    | some c =>
      if s.ownerKilled c then s
      else
        let s := s.countArrival p.src p.chan
        let l := s.lookup none 4 c.tag 0 p.off true
        let s := l.1
        let s := match l.2 with
          | .fault k => s.arrivalFault c k p.index c.count p.off
          | .leaf t =>
            match p.atom with
            | some op =>
              let pa := t.frame + p.off.toNat % 65536
              let die := homeDie pa
              let o := { Origin.device die with addr := some (p.off, 0xFFF8#16), remote := true }
              let r := s.remoteSector die c.tag t.mt pa o
              if r.2.isSome then r.1 else (r.1.atomAt die c.tag [] op pa 4).1
            | none => p.sectors.foldl (fun (s : State) (w : SectorWrite) => s.physWrite 4 c.tag { w with addr := t.frame + w.addr % 65536 }) s
        (s.releaseFlags p.src p.chan).admitLink)

/-! ## Loads and atomics of other nodes -/

/-- The words that a remote load reads at a physical address. -/
def State.remoteWords (s : State) (die pa size : Nat) : List Val :=
  if size < 4 then
    [match s.tokenOf die pa with
      | some t => Val.poison t
      | none => Val.clean (BitVec.ofNat 32 (leNat (s.bytesAt die pa size)))]
  else (List.range (size / 4)).map fun i => s.wordAt die (pa + 4 * i)
/-- The line of a remote load, where its page lets a peer line be kept and no sector of it is poisoned (R201, R270). -/
def State.peerOf (s : State) (die pa : Nat) (t : TlbEntry) : Option (List Byte) :=
  let base := pa / 128 * 128
  let bad (k : Nat) : Bool := (s.tokenOf die (base + 32 * k)).isSome || s.svc.errors.any fun e => e.sector == base / 32 + k
  if t.nopeer || (List.range 4).any bad then none else some (s.bytesAt die base 128)
/-- REMOTE_ACCESS_ARRIVAL (R266, R293, R416): a remote load or ATOM is performed in the view of the location's home die. An ATOM is
a counted write as well (R281, R282). -/
def execRemoteAccessArrival (r : RemoteRequest) (s : State) : Out :=
  .next (match s.recvOf r.src r.chan with
    | none => s
    | some c =>
      let reply (s : State) (a : Reply) : State := s.send (.reply r.src r.reqId a)
      if s.ownerKilled c then reply s (.fault .contextKilled)
      else
        let s := if r.atom.isSome then s.countArrival r.src r.chan else s
        let l := s.lookup none 4 c.tag 0 r.off r.atom.isSome
        let s := l.1
        let s := match l.2 with
          | .fault k =>
            let s := if r.atom.isSome then s.arrivalFault c k r.index c.count r.off
              else if k = .pageMiss then
                (s.svcReq c.tag 0 r.off { Origin.device 4 with addr := some (r.off, 0xFFF8#16), remote := true }).1
              else s
            reply s (.fault k)
          | .leaf t =>
            let pa := t.frame + r.off.toNat % 65536
            let die := homeDie pa
            let o := { Origin.device die with addr := some (r.off, 0xFFF8#16), remote := true }
            let q := s.remoteSector die c.tag t.mt pa o
            match q.2, r.atom with
            | some k, _ => reply q.1 (.fault k)
            | none, none => reply q.1 (.data (q.1.remoteWords die pa r.size) (q.1.peerOf die pa t))
            | none, some op =>
              match q.1.atomAt die c.tag [] op pa 4 with
              | (s, some old, _) => reply s (.data (oldWords op.wide old) none)
              | (s, none, tok) => reply s (.data (List.replicate (if op.wide then 2 else 1) (Val.poison tok)) none)
        if r.atom.isSome then (s.releaseFlags r.src r.chan).admitLink else s)

/-- The 800 ns of R277 in core-clock periods (R10). -/
def ageCycles : Nat := 1520
/-- Whether a packet is of a lane with an age limit: the flag lane has none (R276). -/
def OutMsg.ages : OutMsg → Bool
  | .write _ _ | .request _ _ | .reply _ _ _ => true
  | _ => false
/-- Packets are lost: they have no effect at their receiver (R277). -/
def State.losePackets (s : State) (f : Nat × OutMsg → Bool) : State :=
  s.modFab fun x => { x with out := x.out.filter (fun m => !f m)
                             routes := x.routes.filter fun r => !(x.out.any fun m => m.1 == r.id && f m) }
/-- Whether a packet has been under way for more than 800 ns since it left the bridge die. -/
def State.tooOld (s : State) (m : Nat × OutMsg) : Bool :=
  m.2.ages && s.fabric.routes.any fun r => r.id == m.1 && decide (r.sent + ageCycles < s.ctr 4)
/-- PACKET_AGE_EXPIRY (R277): a packet of the write or the request lane that has grown too old is lost. -/
def execPacketAgeExpiry (job : Nat) (s : State) : Out := .next (s.losePackets fun m => m.1 == job && s.tooOld m)
/-- The packets on a plane that fails, on any lane, may be lost, each of its own (R277; log 3). -/
def State.losePlane (s : State) (plane : Nat) : State :=
  s.losePackets fun m => (s.fabric.routes.any fun r => r.id == m.1 && r.plane == plane) && Config.choice (s.tick + m.1) % 2 == 0

end Sys2Proof.Machine
end

