-- ==== Sys2Proof/Machine/Crypto.lean ====
section
/-!
DEFINITION. The functions of R364 and R365: SHA-384, HKDF-SHA-384 (RFC 5869), and ECDSA over brainpoolP384r1 (RFC 5639).
-/
namespace Sys2Proof.Machine
open Sys2Proof

/-- `n` bytes of a number, the most significant first. -/
def natBE (n v : Nat) : List Byte := (natLE n v).reverse
/-- The number that bytes hold, the most significant first. -/
def beNat (bs : List Byte) : Nat := bs.foldl (fun n b => n * 256 + b.toNat) 0

/-! ## SHA-384 -/

/-- The greatest number of at most 72 bits whose `k`th power is at most `n`. -/
def rootOf (k n : Nat) : Nat := (List.range 72).reverse.foldl (fun x i => if (x + 2 ^ i) ^ k ≤ n then x + 2 ^ i else x) 0
/-- The first 80 primes. -/
def primes80 : List Nat := (List.range 410).filter fun p => decide (2 ≤ p) && (List.range p).all fun d => decide (d < 2) || p % d != 0
/-- The round constants: the first 64 bits of the fractional parts of the primes' cube roots. -/
def shaRound : List DWord := primes80.map fun p => BitVec.ofNat 64 (rootOf 3 (p * 2 ^ 192))
/-- The initial value: those of the square roots of the ninth to the sixteenth prime. -/
def shaStart : List DWord := ((primes80.drop 8).take 8).map fun p => BitVec.ofNat 64 (rootOf 2 (p * 2 ^ 128))
/-- The padded message. -/
def shaPad (m : List Byte) : List Byte := m ++ 0x80#8 :: List.replicate ((239 - m.length % 128) % 128) 0#8 ++ natBE 16 (8 * m.length)
/-- Extend the message schedule by one word. -/
def shaNext (ws : List DWord) : List DWord :=
  let w (k : Nat) : DWord := ws.getD (ws.length - k) 0#64
  let s0 := (w 15).rotateRight 1 ^^^ (w 15).rotateRight 8 ^^^ (w 15 >>> 7)
  let s1 := (w 2).rotateRight 19 ^^^ (w 2).rotateRight 61 ^^^ (w 2 >>> 6)
  ws ++ [s1 + w 7 + s0 + w 16]
/-- One round on the working variables a to h. -/
def shaStep (v : List DWord) (kw : DWord × DWord) : List DWord :=
  let g (k : Nat) : DWord := v.getD k 0#64
  let e1 := (g 4).rotateRight 14 ^^^ (g 4).rotateRight 18 ^^^ (g 4).rotateRight 41
  let a0 := (g 0).rotateRight 28 ^^^ (g 0).rotateRight 34 ^^^ (g 0).rotateRight 39
  let t1 := g 7 + e1 + ((g 4 &&& g 5) ^^^ (~~~ (g 4) &&& g 6)) + kw.1 + kw.2
  let t2 := a0 + ((g 0 &&& g 1) ^^^ (g 0 &&& g 2) ^^^ (g 1 &&& g 2))
  (t1 + t2) :: g 0 :: g 1 :: g 2 :: (g 3 + t1) :: (v.drop 4).take 3
/-- One block of 128 bytes. -/
def shaBlock (h : List DWord) (b : List Byte) : List DWord :=
  let ws := (List.range 16).map fun i => BitVec.ofNat 64 (beNat ((b.drop (8 * i)).take 8))
  let ws := Nat.repeat shaNext 64 ws
  List.zipWith (· + ·) h ((shaRound.zip ws).foldl shaStep h)
/-- The SHA-384 digest of a byte string. -/
def sha384 (m : List Byte) : List Byte :=
  let p := shaPad m
  (((List.range (p.length / 128)).foldl (fun h i => shaBlock h ((p.drop (128 * i)).take 128)) shaStart).flatMap fun w => natBE 8 w.toNat).take 48

/-! ## HMAC and HKDF -/

/-- HMAC-SHA-384. -/
def hmac384 (key m : List Byte) : List Byte :=
  let k := if 128 < key.length then sha384 key else key
  let k := k ++ List.replicate (128 - k.length) 0#8
  sha384 (k.map (· ^^^ 0x5C#8) ++ sha384 (k.map (· ^^^ 0x36#8) ++ m))
/-- HKDF-SHA-384: `n` blocks of 48 bytes of output. -/
def hkdf384 (salt ikm info : List Byte) (n : Nat) : List Byte :=
  let prk := hmac384 salt ikm
  ((List.range n).foldl (fun (r : List Byte × List Byte) i =>
    let t := hmac384 prk (r.2 ++ info ++ [BitVec.ofNat 8 (i + 1)])
    (r.1 ++ t, t)) ([], [])).1

/-! ## brainpoolP384r1 -/

/-- The prime of the field, the coefficient A of y² = x³ + Ax + B, the order of the base point, and the base point. -/
def bpP : Nat := 0x8CB91E82A3386D280F5D6F7E50E641DF152F7109ED5456B412B1DA197FB71123ACD3A729901D1A71874700133107EC53
def bpA : Nat := 0x7BC382C63D8C150C3C72080ACE05AFA0C2BEA28E4FB22787139165EFBA91F90F8AA5814A503AD4EB04A8C7DD22CE2826
def bpB : Nat := 0x04A8C7DD22CE28268B39B55416F0447C2FB77DE107DCD2A62E880EA53EEB62D57CB4390295DBC9943AB78696FA504C11
def bpN : Nat := 0x8CB91E82A3386D280F5D6F7E50E641DF152F7109ED5456B31F166E6CAC0425A7CF3AB6AF6B7FC3103B883202E9046565
def bpG : Nat × Nat :=
  (0x1D1C64F068CF45FFA2A63A81B7C13F6B8847A3E77EF14FE3DB7FCAFE0CBD10E8E826E03436D646AAEF87B2E247D4AF1E,
   0x8ABE1D7520F9C2A45CB1EB8E95CFD55262B70B29FEEC5864E19C054FF99129280E4646217791811142820341263C5315)
/-- A point of the curve; none is the point at infinity. -/
abbrev Point := Option (Nat × Nat)
/-- `b ^ e` modulo `m`, for an exponent of at most 384 bits. -/
def powMod (m b e : Nat) : Nat :=
  (List.range 384).reverse.foldl (fun r i => let r := r * r % m; if e.testBit i then r * b % m else r) 1
/-- The inverse modulo a prime. -/
def invMod (m a : Nat) : Nat := powMod m (a % m) (m - 2)
/-- The sum of two points, with the slope of the line through them. -/
def Point.add : Point → Point → Point
  | none, q => q
  | some a, none => some a
  | some (x1, y1), some (x2, y2) =>
    if x1 = x2 ∧ (y1 + y2) % bpP = 0 then none
    else
      let slope := if x1 = x2 then (3 * x1 * x1 + bpA) * invMod bpP (2 * y1) % bpP else (y2 + bpP - y1) * invMod bpP (x2 + bpP - x1) % bpP
      let x := (slope * slope + 2 * bpP - x1 - x2) % bpP
      some (x, (slope * (x1 + bpP - x) + bpP - y1) % bpP)
/-- A multiple of a point. -/
def Point.mul (k : Nat) (q : Point) : Point :=
  (List.range 384).reverse.foldl (fun r i => let r := r.add r; if k.testBit i then r.add q else r) none
/-- The x coordinate of a point modulo the order; 0 for the point at infinity. -/
def Point.xMod (q : Point) : Nat := (q.map fun a => a.1 % bpN).getD 0
/-- The point lies on the curve. -/
def onCurve (q : Nat × Nat) : Bool :=
  decide (q.1 < bpP) && decide (q.2 < bpP) && q.2 * q.2 % bpP == (q.1 * q.1 * q.1 + bpA * q.1 + bpB) % bpP

/-! ## ECDSA with SHA-384 -/

/-- A scalar of 1 to n - 1 from bytes. -/
def scalarOf (bs : List Byte) : Nat := beNat bs % (bpN - 1) + 1
/-- The number that stands for a message. -/
def hashNat (m : List Byte) : Nat := beNat (sha384 m)
/-- The signature (r, s) of a message under a private key, with the number `k` for this signature. -/
def ecdsaSign (key k : Nat) (m : List Byte) : Nat × Nat :=
  let r := (Point.mul k (some bpG)).xMod
  (r, invMod bpN k * (hashNat m + r * key) % bpN)
/-- Whether (r, s) is a signature of a message under a public key. -/
def ecdsaVerify (key : Nat × Nat) (m : List Byte) (r s : Nat) : Bool :=
  let w := invMod bpN s
  let q := (Point.mul (hashNat m * w % bpN) (some bpG)).add (Point.mul (r * w % bpN) (some key))
  onCurve key && decide (0 < r) && decide (r < bpN) && decide (0 < s) && decide (s < bpN) && q != none && q.xMod == r
/-- The public key of a private one. -/
def publicKey (key : Nat) : Nat × Nat := (Point.mul key (some bpG)).getD (0, 0)
/-- A public key as bytes: an uncompressed point. -/
def keyBytes (q : Nat × Nat) : List Byte := 4#8 :: natBE 48 q.1 ++ natBE 48 q.2
/-- A signature as bytes: r and then s. -/
def signBytes (q : Nat × Nat) : List Byte := natBE 48 q.1 ++ natBE 48 q.2

/-! ## X.509 DER -/

/-- A DER value with its tag and length. -/
def der (tag : Byte) (body : List Byte) : List Byte :=
  let n := body.length
  let k := if n < 256 then 1 else if n < 65536 then 2 else 3
  tag :: (if n < 128 then natBE 1 n else BitVec.ofNat 8 (0x80 + k) :: natBE k n) ++ body
/-- A DER integer of at most 384 bits, with no byte more than it needs. -/
def derNat (v : Nat) : List Byte :=
  let bs := (natBE 49 v).dropWhile (· == 0#8)
  der 2#8 (if (bs.headD 0x80#8).toNat < 128 then bs else 0#8 :: bs)
/-- The object identifier of ECDSA with SHA-384, as a DER algorithm identifier. -/
def derEcdsa : List Byte := der 0x30#8 (der 6#8 [0x2A#8, 0x86#8, 0x48#8, 0xCE#8, 0x3D#8, 4#8, 3#8, 3#8])
/-- A certificate: what is signed, the algorithm and the signature. -/
def derCert (tbs : List Byte) (q : Nat × Nat) : List Byte :=
  der 0x30#8 (tbs ++ derEcdsa ++ der 3#8 (0#8 :: der 0x30#8 (derNat q.1 ++ derNat q.2)))

/-! ## Keys and images -/

/-- The alias key (R364): derived from the identity secret and the digest of measurements 1 to 4 (log 30). -/
def aliasKeyOf (measurements : List Byte) : Nat := scalarOf (hkdf384 [] Config.identitySecret (sha384 measurements) 2)
/-- A signature under a key; `n` and the message name its free number k. -/
def signWith (key n : Nat) (m : List Byte) : Nat × Nat := ecdsaSign key (scalarOf (Config.signNonce n m)) m
/-- The checks of a firmware image (R365): its digest, the signature by the firmware key whose hash the fuses hold, and the SVN. -/
def checkImage (fused : Nat) (bs : List Byte) : Option FirmwareImage :=
  (Config.parseImage bs).filter fun i =>
    i.digest == sha384 i.body && decide (fused ≤ i.svn) && sha384 (keyBytes i.key) == Config.keyHash && ecdsaVerify i.key i.body i.sig.1 i.sig.2

end Sys2Proof.Machine
end

