-- ==== Sys2Proof/Machine/Task.lean ====
section
/-!
DEFINITION. Tasks (R38 to R40, R333 to R336): SPAWN and JOINC, the task queues and the task ring, the start of a task and the join
that ends one.
-/
namespace Sys2Proof.Machine
open Sys2Proof

/-! ## Continuation records (R38) -/

/-- Read a continuation record whose own address is `addr`. -/
def parseTask (addr : Nat) (bs : List Byte) : TaskRec :=
  { addr := addr, entry := numAt bs 0 8, frame := numAt bs 8 8, join := numAt bs 16 4, flags := numAt bs 20 4, parent := numAt bs 24 8 }
/-- The bytes of a record. -/
def TaskRec.bytes (t : TaskRec) : List Byte :=
  natLE 8 t.entry ++ natLE 8 t.frame ++ natLE 4 t.join ++ natLE 4 t.flags ++ natLE 8 t.parent
/-- AUTOJOIN and CONT. -/
def TaskRec.autojoin (t : TaskRec) : Bool := t.flags % 2 == 1
def TaskRec.cont (t : TaskRec) : Bool := t.flags / 2 % 2 == 1
/-- The checks of R335 on a record, CONT aside. -/
def Krec.taskOk (k : Krec) (t : TaskRec) : Bool :=
  k.taskw != 0 && decide (t.flags < 4) && decide (k.codeBase ≤ t.entry) && decide (t.entry + 4 ≤ k.codeBase + k.codeSize)
    && t.entry % 4 == 0

/-! ## Queues and the ring (R333) -/

/-- A read that is repeated at once from the correct copy each time it meets an error in a clean copy; each such error is met once, so `fuel`
repeats are enough. -/
def State.engineAgain (s : State) (tag : Nat) (o : Origin) (off : DWord) (n : Nat) : Nat → State × EngineRead
  | 0 => s.engineBytes none 4 tag o (n / 32 + 2) off n
  | fuel + 1 =>
    let r := s.engineBytes none 4 tag o (n / 32 + 2) off n
    match r.2 with
    | .token t => if tokenCause t = 5 then r.1.engineAgain tag o off n fuel else r
    | _ => r
/-- A read of the launch engine: one that meets an error in a clean copy is repeated at once from the correct copy (R417). -/
def State.launchBytes (s : State) (tag : Nat) (o : Origin) (off : DWord) (n : Nat) : State × EngineRead :=
  s.engineAgain tag o off n s.svc.errors.length
/-- The offset of ring record `n`. -/
def Launch.ringOff (l : Launch) (n : Nat) : DWord := BitVec.ofNat 64 (l.pkt.tring + 32 * (n % l.pkt.tringn))
/-- Records that a ring access lost: the outstanding count falls, and a fault record of KIND 6 tells of it (R417, R399). -/
def State.ringLost (s : State) (id n : Nat) (code : Nat) (off : DWord) : State :=
  let l := s.launchOf id
  (s.modLaunch id fun l => { l with outstanding := l.outstanding - n }).pushRecord l.tag
    (faultRecord (causeGrade code) code 6 l.pkt.launchId 0#64 off 0#32 0xFFF8#16)
/-- Write a record at the tail of the ring. On a page miss it waits, unless it is the repeated write (R417). -/
def State.ringWrite (s : State) (id : Nat) (t : TaskRec) (again : Bool) : State :=
  let l := s.launchOf id
  let off := l.ringOff l.ringTail
  match s.engineWrite none 4 l.tag off t.bytes with
  | (s, none) => s.modLaunch id fun l => { l with ringTail := l.ringTail + 1, ring := l.ring ++ [t.addr] }
  | (s, some .pageMiss) =>
    if again then s.ringLost id 1 1 off
    else
      let r := s.svcReq l.tag 0 off (Origin.device 4)
      r.1.modLaunch id fun l => { l with ringWait := l.ringWait ++ [t], ringReq := some r.2 }
  | (s, some c) => s.ringLost id 1 c.code off
/-- The overflow engine: a record goes to the tail of the ring, behind those that wait. -/
def State.ringPush (s : State) (id : Nat) (t : TaskRec) : State :=
  if (s.launchOf id).ringWait.isEmpty then s.ringWrite id t false
  else s.modLaunch id fun l => { l with ringWait := l.ringWait ++ [t] }
/-- The records of a launch in a core's task queue. -/
def State.queuedOn (s : State) (core id : Nat) : List TaskRec :=
  ((s.coreAt core).taskQ.filter fun e => e.1 == id).map Prod.snd
/-- Push a record: 0 if it is queued on the core, 1 if it goes to the ring (R333, R335). It becomes outstanding. -/
def State.pushTask (s : State) (core id : Nat) (t : TaskRec) : State × Nat :=
  let s := s.modLaunch id fun l => { l with outstanding := l.outstanding + 1 }
  if (s.queuedOn core id).length < 256 then (s.modCore core fun c => { c with taskQ := c.taskQ ++ [(id, t)] }, 0)
  else (s.ringPush id t, 1)
/-- A core hands its queued records of a launch to the ring, in queue order (R333). -/
def State.handTasks (s : State) (core id : Nat) : State :=
  let ts := s.queuedOn core id
  ts.foldl (fun s t => s.ringPush id t) (s.modCore core fun c => { c with taskQ := c.taskQ.filter fun e => e.1 != id })

/-! ## SPAWN (R334, R335) -/

/-- What a lane of SPAWN or JOINC comes to. -/
inductive TaskOut where
  | token (t : Word)
  /-- A cause whose token the instruction's lanes share. -/
  | bad (c : Cause)
  | value (n : Nat)
  deriving DecidableEq, Repr, Inhabited

/-- The results of the lanes, with one token for each shared cause, and the flag event of the lanes that receive poison. -/
def State.taskDeliver (s : State) (iss : Iss) (d : Code) (outs : List (Nat × TaskOut)) : State :=
  let mint (r : State × List (Cause × Word)) (o : Nat × TaskOut) : State × List (Cause × Word) := match o.2 with
    | .bad c =>
      if r.2.any fun e => e.1 == c then r
      else
        let m := maskOfLanes ((outs.filter fun x => x.2 == .bad c).map Prod.fst)
        let t := r.1.mkToken s.myTag c (s.here m iss.pc)
        (t.1, r.2 ++ [(c, t.2)])
    | _ => r
  let r := outs.foldl mint (s, [])
  let val (o : TaskOut) : Val := match o with
    | .token t => Val.poison t
    | .bad c => Val.poison (tokenIn r.2 c)
    | .value n => Val.clean (BitVec.ofNat 32 n)
  let vs := lanes32 fun l => ((outs.find? fun o => o.1 == l).map fun o => val o.2).getD Val.zero
  let ts := distinct (outs.filterMap fun o => if (val o.2).psn then some (val o.2).bits else none)
  let s := if ts.isEmpty then r.1 else r.1.flagMine ts
  s.deliver iss.act iss.pc [d] [vs] [.g]

/-- The address of a lane's record: 32 bytes of SPACE 0 of the own node (R334). -/
def taskAddr (os : List Opd) (l : Nat) : BitVec 16 × (Word ⊕ DWord) :=
  laneAddr 0xFFF8#16 (os.getD 0 default) (os.getD 1 default) 0#64 l
/-- The physical place of a lane whose record may be reached, or its token. -/
def recordPlace (toks : List (Cause × Word)) (a : LaneAcc) : Word ⊕ Nat :=
  match a.way with
  | .bad t => .inl t
  | .fault c _ _ => .inl (tokenIn toks c)
  | .mem _ ((pa, _) :: _) => .inr pa
  | _ => .inl 0#32

/-- SPAWN (R335). -/
def execSpawn (d a : BitVec 8) (s : State) : Out :=
  .next (s.issue (.spawn d a) { reads := pairCodes a, slotA := pairCodes a, dsts := [d], lat := 20 } s.myLaunch.paired
      (s.warp.acquiring || !s.released s.warp.ref false) fun s iss os =>
    let c := State.ways 32 32 false (taskAddr os) (lanesOf iss.act) s []
    let t := c.1.tokensFor iss.pc (c.1.laneFaults iss.chan (fun _ => true) c.2)
    let p := t.1.prepare iss.pc true c.2
    let id := s.myWg.launch
    let core := s.myWg.core
    let die := s.myDie
    let step (r : State × List (Nat × TaskOut)) (x : LaneAcc) : State × List (Nat × TaskOut) :=
      let s := r.1
      let out (s : State) (o : TaskOut) : State × List (Nat × TaskOut) := (s, r.2 ++ [(x.lane, o)])
      match recordPlace t.2 x with
      | .inl tok => out s (.token tok)
      | .inr pa =>
        match s.sectorToken die p.2 pa with
        | some tok => out s (.token tok)
        | none =>
          let k := s.myLaunch.krec
          let q := parseTask x.off.toNat (s.bytesAt die pa 32)
          if !k.taskOk q || q.cont then out s (.bad .illegalOperand)
          -- at or above: a continuation may have lifted the count above TQUOTA (R333, R336; log 64)
          else if s.myLaunch.pkt.tquota ≤ (s.launchOf id).outstanding then out s (.bad .queueQuota)
          else
            let z := s.pushTask core id q
            out z.1 (.value z.2)
    let r := c.2.foldl step (p.1, [])
    r.1.taskDeliver iss d r.2)

/-! ## JOINC (R336) -/

/-- One indivisible JOINC on the record at a physical address, by an agent on a core of a launch. -/
def State.joincAt (s : State) (core id die tag : Nat) (errs : List (Nat × Word)) (addr pa : Nat) : State × TaskOut :=
  let s := s.modMem fun d => d.catchUp die pa
  match s.sectorToken die errs pa with
  | some tok => (s, .token tok)
  | none =>
    let l := s.launchOf id
    let q := parseTask addr (s.bytesAt die pa 32)
    let last := q.join = 1 ∧ q.cont = true
    if q.join = 0 then (s, .bad .illegalOperand)
    else if last ∧ l.krec.taskOk q = false then (s, .bad .illegalOperand)
    else if last ∧ l.outstanding = l.pkt.tringn then (s, .bad .queueQuota)
    else
      let s := s.physWrite die tag (sectorBytes (pa + 16) (natLE 4 (q.join - 1)))
      ((if last then (s.pushTask core id { q with join := 0 }).1 else s), .value (q.join - 1))

/-- JOINC (R336). -/
def execJoinc (d a : BitVec 8) (s : State) : Out :=
  .next (s.issue (.joinc d a) (Form.atomics { reads := pairCodes a, slotA := pairCodes a, dsts := [d] }) s.myLaunch.paired
      (s.warp.acquiring || !s.released s.warp.ref false) fun s iss os =>
    let c := State.ways 32 32 true (taskAddr os) (lanesOf iss.act) s []
    let t := c.1.tokensFor iss.pc (c.1.laneFaults iss.chan (fun _ => true) c.2)
    let p := t.1.prepare iss.pc true c.2
    let g := s.myWg
    let die := s.myDie
    let step (r : State × List (Nat × TaskOut)) (x : LaneAcc) : State × List (Nat × TaskOut) :=
      match recordPlace t.2 x with
      | .inl tok => (r.1, r.2 ++ [(x.lane, .token tok)])
      | .inr pa =>
        let q := r.1.joincAt g.core g.launch die g.tag p.2 x.off.toNat pa
        (q.1, r.2 ++ [(x.lane, q.2)])
    let r := c.2.foldl step (p.1, [])
    r.1.taskDeliver iss d r.2)

/-! ## The start of a task (R39, R40) -/

/-- An idle task slot, in which nothing that a task issued waits to be performed. -/
def Warp.idleSlot (w : Warp) : Bool := w.isTask && w.status == .idle && w.held.isNone && w.late.isEmpty
/-- Whether a flush has stopped the issue of a workgroup's unit (R338). -/
def State.halted (s : State) (g : Wg) : Bool :=
  let l := s.launchOf g.launch
  l.units.any fun u => u.state == .flushing && (l.pkt.flags % 2 == 1 || u.cluster == linearCluster l.pkt g.cl)
/-- The idle task slots of a launch on a core, lowest-numbered first. -/
def State.idleSlots (s : State) (core id : Nat) : List Warp :=
  (s.wgs.filter fun g => g.launch == id && g.core == core && !g.saved && !g.ended && !s.halted g).flatMap fun g =>
    (List.range 32).filterMap fun k => (s.getWarp { wg := g.id, warp := k }).bind fun w => if w.idleSlot then some w else none
/-- The state in which a task starts: that of R25, with FRAME and the record's address in v0 to v3 (R40). -/
def Warp.startTask (w : Warp) (t : TaskRec) : Warp :=
  let f := Warp.fresh w.ref (BitVec.ofNat 64 t.entry) 0#32
  let put (f : Warp) (k x : Nat) : Warp :=
    if k < w.n then f.setReg k { lanes := splat (Val.clean (BitVec.ofNat 32 x)), shape := .u, dead := false } else f
  let f := put (put (put (put f 0 t.frame) 1 (t.frame / 2 ^ 32)) 2 t.addr) 3 (t.addr / 2 ^ 32)
  { f with isTask := true, task := some t, quad := w.quad, n := w.n, gmax := w.gmax, privw := w.privw, spw := w.spw
           places := w.places, privBase := w.privBase }
/-- TASK_START (R333, R40): the head of the core's queue starts on the lowest-numbered idle slot. -/
def execTaskStart (w : WarpRef) (s : State) : Out :=
  .next (match s.wgOf w.wg with
    | none => s
    | some g =>
      match s.queuedOn g.core g.launch, s.idleSlots g.core g.launch with
      | t :: _, x :: _ =>
        if x.ref != w then s
        else
          let s := s.modCore g.core fun c =>
            { c with taskQ := match c.taskQ.findIdx? fun e => e.1 == g.launch with
                | some k => c.taskQ.eraseIdx k
                | none => c.taskQ }
          -- the task's first instruction follows an acquire at device scope (R335)
          ((s.modMem DevMem.sync).modLaunch g.launch fun l => { l with outstanding := l.outstanding - 1 }).modWarp w fun x => x.startTask t
      | _, _ => s)

/-- Whether the request that a ring access waits for is resolved. -/
def State.ringServed (s : State) (l : Launch) : Bool := match l.ringReq with
  | some n => (s.ctx l.tag).resolved n
  | none => false
/-- Whether a core may take a record from the ring (R333). -/
def State.mayRefill (s : State) (l : Launch) (core : Nat) : Bool :=
  l.ringReq.isNone && (s.queuedOn core l.id).isEmpty && !l.ring.isEmpty
    && s.wgs.any fun g => g.launch == l.id && g.core == core && !g.saved && !g.ended
/-- A core whose queue is empty takes the record at the head of the ring; `again` where the core's read is repeated (R417). -/
def State.ringRead (s : State) (id core : Nat) (again : Bool) : State :=
  let l := s.launchOf id
  let off := l.ringOff l.ringHead
  let take (s : State) : State := s.modLaunch id fun l => { l with ringHead := l.ringHead + 1, ring := l.ring.drop 1 }
  let o := Origin.device 4
  let r := s.launchBytes l.tag o off 32
  match r.2 with
  | .bytes bs => (take r.1).modCore core fun c => { c with taskQ := c.taskQ ++ [(id, parseTask (l.ring.headD 0) bs)] }
  | .fault .pageMiss off =>
    if again then (take r.1).ringLost id 1 1 off
    else
      let q := r.1.svcReq l.tag 0 off o
      q.1.modLaunch id fun l => { l with ringReq := some q.2, ringFor := some core }
  | .fault c off => (take r.1).ringLost id 1 c.code off
  | .token t => (take r.1).ringLost id 1 (tokenCause t) off
/-- TASK_RING_REFILL (R333, R417): a core refills from the ring, or an access of the ring whose request is resolved is repeated:
first the pushes that wait, then the read. -/
def execTaskRingRefill (launch core : Nat) (s : State) : Out :=
  .next (match s.launches.find? fun l => l.id == launch with
    | none => s
    | some l =>
      if s.ringServed l then
        let s := s.modLaunch launch fun l => { l with ringReq := none, ringWait := [], ringFor := none }
        let s := match l.ringWait with
          | t :: ts => ts.foldl (fun s t => s.ringPush launch t) (s.ringWrite launch t true)
          | [] => s
        match l.ringFor with
        | some c =>
          if (s.launchOf launch).ringReq.isSome then s.modLaunch launch fun l => { l with ringFor := some c }
          else if s.mayRefill (s.launchOf launch) c then s.ringRead launch c true else s
        | none => s
      else if s.mayRefill l core then s.ringRead launch core false
      else s)

/-! ## The join that ends a task (R40, R336) -/

/-- The AUTOJOIN of a task that has ended. It stays to be made where there is no room; poison that it meets has no lane to go to
(log 27). -/
def State.autojoin (s : State) (w : Warp) : State :=
  let done (s : State) : State := s.modWarp w.ref fun w => { w with status := .idle, task := none, joinAt := none }
  match w.task with
  | none => done s
  | some t =>
    let g := (s.wgOf w.ref.wg).getD default
    let die := dieOf g.core
    let off := BitVec.ofNat 64 t.parent
    let o := { s.originOf g.id w.ref.warp w.quad 0#32 0#64 with addr := some (off, 0xFFF8#16) }
    let s := s.modMem DevMem.sync
    if t.parent % 32 ≠ 0 then done (s.mkToken g.tag .align o).1
    else
      let r := s.lookup (some g.core) die g.tag 0 off true
      match r.2 with
      | .fault c => done (r.1.faultToken g.tag 0 c off 0xFFF8#16 o).1
      | .leaf l =>
        let pa := l.frame + t.parent % 65536
        let a := r.1.access die g.tag pa o l.mt
        let errs := match a.2 with
          | some tok => [(pa / 32 * 32, tok)]
          | none => []
        match a.1.joincAt g.core g.launch die g.tag errs t.parent pa with
        | (s, .bad .queueQuota) => s.modWarp w.ref fun w => { w with joinAt := some (s.ctr die) }
        | (s, .bad c) => done (s.mkToken g.tag c o).1
        | (s, _) => done s
/-- Whether a task's join may be made: every store of the task has been performed (R40). -/
def State.joinReady (s : State) (w : Warp) : Bool := w.status == .joining && s.drained w.ref && w.held.isNone && w.late.isEmpty
/-- TASK_AUTOJOIN (R40). -/
def execTaskAutojoin (w : WarpRef) (s : State) : Out :=
  .next (match s.getWarp w with
    | none => s
    | some x => if s.joinReady x && x.joinAt.isNone then s.autojoin x else s)
/-- Whether a refused join is due again, 1,024 cycles later (R336). -/
def State.joinDue (s : State) (w : Warp) : Bool := match w.joinAt with
  | some t => s.joinReady w && decide (t + 1024 ≤ s.ctr (dieOf (s.coreOf w.ref.wg)))
  | none => false
/-- TASK_AUTOJOIN_RETRY (R336). -/
def execTaskAutojoinRetry (w : WarpRef) (s : State) : Out :=
  .next (match s.getWarp w with
    | none => s
    | some x => if s.joinDue x then s.autojoin x else s)

end Sys2Proof.Machine
end

