-- ==== Sys2Proof/Machine/Place.lean ====
section
/-!
DEFINITION. Placement (R12, R14, R19 to R22, R25 to R31, R34, R49, R158, R204, R243, R388): the room that cores have, the partition of a
context, and the workgroups and warps that a cluster brings.
-/
namespace Sys2Proof.Machine
open Sys2Proof

/-! ## Room on a core (R14, R49) -/

/-- What a core has given away: workgroups, stash units, runs of accumulator slots, weight slots and tags, and for each quadrant its
warps and reserved cabinet words. -/
structure Room where
  wgs : Nat
  stash : Nat
  acc : List (Nat × Nat)
  wslot : List (Nat × Nat)
  tags : List (Nat × Nat)
  quads : List (Nat × Nat)
  deriving DecidableEq, Repr, Inhabited

/-- An empty core. -/
def Room.empty : Room := { wgs := 0, stash := 0, acc := [], wslot := [], tags := [], quads := List.replicate 4 (0, 0) }
/-- The cabinet words that a warp reserves (R49). -/
def reservation (n gmax : Nat) : Nat := gmax * 32 + (n - gmax) * 2
/-- The lowest base at which a run of `n` fits below `cap`. -/
def runBase (used : List (Nat × Nat)) (n cap : Nat) : Option Nat :=
  if n = 0 then some 0
  else (List.range (cap + 1 - n)).find? fun b => decide (n ≤ cap) && used.all fun u => !overlaps b n u.1 u.2
/-- Whether a quadrant can take one more warp (R14, R49). -/
def quadTakes (words : Nat) (q : Nat × Nat) : Bool := decide (q.1 < 16) && decide (q.2 + words ≤ 32768)
/-- The quadrants that `n` warps of one size take, in warp order, starting from quadrant `k`; each warp takes the next quadrant in turn
that has room (log 65). -/
def takeQuads (words : Nat) : Nat → Nat → List (Nat × Nat) → Option (List Nat × List (Nat × Nat))
  | 0, _, qs => some ([], qs)
  | n + 1, k, qs =>
    match [k % 4, (k + 1) % 4, (k + 2) % 4, (k + 3) % 4].find? fun q => quadTakes words (qs.getD q (0, 0)) with
    | none => none
    | some q => (takeQuads words n (k + 1) (updAt qs q fun x => (x.1 + 1, x.2 + words))).map fun r => (q :: r.1, r.2)

/-- What a workgroup needs of its core. -/
structure Need where
  warps : Nat
  words : Nat
  stash : Nat
  acc : Nat
  wslot : Nat
  tags : Nat
  deriving DecidableEq, Repr, Inhabited
/-- What a workgroup receives: the bases of its runs and the quadrant of each warp. -/
structure Grant where
  acc : Nat
  wslot : Nat
  tags : Nat
  quads : List Nat
  deriving DecidableEq, Repr, Inhabited

/-- The demand of a launch's workgroups (R19, R96). -/
def needOf (k : Krec) (p : Packet) : Need :=
  { warps := spatialWarps p + k.taskw, words := reservation k.n k.gmax, stash := k.stashk, acc := k.accSlots, wslot := k.wSlots
    tags := k.tags }
/-- The given quadrants that `n` warps of one size take again (R33). -/
def sameQuads (words : Nat) : List Nat → List (Nat × Nat) → Option (List Nat × List (Nat × Nat))
  | [], qs => some ([], qs)
  | q :: own, qs =>
    if quadTakes words (qs.getD q (0, 0)) then
      (sameQuads words own (updAt qs q fun x => (x.1 + 1, x.2 + words))).map fun r => (q :: r.1, r.2)
    else none
/-- Give a workgroup its place on a core; `tagRun` where it must be a given tag run (R243), `own` where its warps keep their quadrants (R33). -/
def Room.take (r : Room) (d : Need) (tagRun : Option Nat) (own : Option (List Nat) := none) : Option (Room × Grant) :=
  if 16 ≤ r.wgs ∨ 14 < r.stash + d.stash then none
  else
    let tagBase := match tagRun with
      | none => runBase r.tags d.tags 64
      | some b => if r.tags.all fun u => !overlaps b d.tags u.1 u.2 then some b else none
    match runBase r.acc d.acc 16, runBase r.wslot d.wslot 8, tagBase,
        (match own with
          | some qs => sameQuads d.words qs r.quads
          | none => takeQuads d.words d.warps 0 r.quads) with
    | some a, some w, some t, some q =>
      some ({ wgs := r.wgs + 1, stash := r.stash + d.stash, acc := (a, d.acc) :: r.acc, wslot := (w, d.wslot) :: r.wslot
              tags := (t, d.tags) :: r.tags, quads := q.2 },
            { acc := a, wslot := w, tags := t, quads := q.1 })
    | _, _, _, _ => none

/-- The room that the resident workgroups have left on a core. -/
def State.roomOf (s : State) (core : Nat) : Room :=
  (s.wgs.filter fun g => g.core == core && !g.saved && !g.ended).foldl (fun r g =>
    { wgs := r.wgs + 1, stash := r.stash + (s.launchOf g.launch).krec.stashk, acc := (g.accBase, g.acc.length) :: r.acc
      wslot := (g.wBase, g.wslot.length) :: r.wslot, tags := (g.tagBase, g.tags.length) :: r.tags
      quads := (s.warpsOf g.id).foldl (fun qs w => updAt qs w.quad fun x => (x.1 + 1, x.2 + reservation w.n w.gmax)) r.quads })
    Room.empty

/-! ## Hardware clusters and partitions (R353, R359) -/

/-- The hardware clusters that virtual functions hold. -/
def Service.vfClusters (v : Service) : DWord := (v.funcs.drop 2).foldl (fun m f => m ||| f.clusters) 0#64
/-- Whether hardware cluster `hc` (die * 16 + cluster) belongs to the partition of a context, and has not failed. -/
def State.mayPlace (s : State) (tag hc : Nat) : Bool :=
  let f := (s.ctx tag).func
  decide (hc < 64) && !s.svc.failedClusters.contains hc
    && (if f < 2 then !s.svc.vfClusters.getLsbD hc else (s.svc.funcs.getD f default).clusters.getLsbD hc)
/-- The enabled cores of a hardware cluster. -/
def State.coresOf (s : State) (hc : Nat) : List Nat := ((List.range 4).map fun k => hc * 4 + k).filter fun c => (s.coreAt c).enabled

/-- Place workgroups, each with its demand and its tag run if it has one, on cores, each on the first that has room from its own number
on (R27; log 65). The core and the grant of each. -/
def placeAll : List (Need × Option Nat) → Nat → List (Nat × Room) → Option (List (Nat × Grant))
  | [], _, _ => some []
  | d :: ds, k, rooms =>
    match (rooms.drop (k % rooms.length) ++ rooms.take (k % rooms.length)).findSome? fun x =>
        (x.2.take d.1 d.2).map fun y => (x.1, y) with
    | none => none
    | some (c, room, g) =>
      (placeAll ds (k + 1) (rooms.map fun x => if x.1 = c then (c, room) else x)).map fun r => (c, g) :: r
/-- The places of `n` like workgroups on the cores of a hardware cluster with the given rooms. -/
def placeLike (d : Need) (n : Nat) (rooms : List (Nat × Room)) : Option (List (Nat × Grant)) :=
  placeAll (List.replicate n (d, none)) 0 rooms
/-- The rooms of a hardware cluster as they stand. -/
def State.roomsOf (s : State) (hc : Nat) : List (Nat × Room) := (s.coresOf hc).map fun c => (c, s.roomOf c)
/-- Whether a cluster coordinate fits a hardware cluster now. -/
def State.fits (s : State) (tag : Nat) (d : Need) (n hc : Nat) : Bool :=
  s.mayPlace tag hc && (placeLike d n (s.roomsOf hc)).isSome
/-- The cluster coordinates that a hardware cluster with free cores can hold, up to `fuel`. -/
def holds (d : Need) (n : Nat) : Nat → List (Nat × Room) → Nat
  | 0, _ => 0
  | fuel + 1, rooms => match placeLike d n rooms with
    | none => 0
    | some gs =>
      let next := gs.foldl (fun rs g => rs.map fun x => if x.1 = g.1 then
        (x.1, ((x.2.take d none).map Prod.fst).getD x.2) else x) rooms
      1 + holds d n fuel next

/-- Whether hardware clusters that can hold the given numbers of cluster coordinates hold `n` of them; of a paired launch both replicas of each,
on two hardware clusters (R34, R388). -/
def enoughFor (paired : Bool) (n : Nat) (free : List Nat) : Bool :=
  if paired then decide (2 * n ≤ (free.map (min n)).sum) else decide (n ≤ free.sum)

/-! ## Workgroups and warps (R19, R22, R25, R28) -/

/-- The workgroup coordinate of rank `k` within its stage (R28). -/
def wgCoord (p : Packet) (k : Nat) : Nat × Nat × Nat := (k % p.cdim.1, k / p.cdim.1 % p.cdim.2.1, k / (p.cdim.1 * p.cdim.2.1))
/-- The cluster coordinate of a linear index (R29). -/
def clusterCoord (p : Packet) (k : Nat) : Nat × Nat × Nat := (k % p.gdim.1, k / p.gdim.1 % p.gdim.2.1, k / (p.gdim.1 * p.gdim.2.1))
/-- The workgroups of one cluster coordinate. -/
def perCluster (p : Packet) : Nat := p.stages * nwgOf p
/-- The clusters of a launch. -/
def clusterTotal (p : Packet) : Nat := p.gdim.1 * p.gdim.2.1 * p.gdim.2.2
/-- Its threads, and so the lanes of spatial warp `k` that hold none (R22). -/
def threadCount (p : Packet) : Nat := p.wdim.1 * p.wdim.2.1 * p.wdim.2.2
def emptyLanes (p : Packet) (k : Nat) : Mask := maskOf fun l => decide (threadCount p ≤ 32 * k + l)

/-- An accumulator slot and a workgroup as they are given (R158, R204, R243, R330). -/
def Wg.fresh (l : Launch) (id cl rank replica partner core : Nat) (g : Grant) : Wg :=
  { id := id, launch := l.id, tag := l.tag, cl := clusterCoord l.pkt cl, wg := wgCoord l.pkt (rank % nwgOf l.pkt)
    stage := rank / nwgOf l.pkt, replica := replica, partner := partner, core := core, stash := Memory.empty
    smap := List.replicate 32 { valid := false, gbase := 0, soff := 0, len := 0, pre := false, pages := [], lines := [] }
    acc := List.replicate l.krec.accSlots zeroSlot, wslot := List.replicate l.krec.wSlots Memory.empty
    accBase := g.acc, wBase := g.wslot, tagBase := g.tags, tags := List.replicate l.krec.tags TagSt.idle
    bars := List.replicate l.krec.nbar (Bar.fresh (spatialWarps l.pkt)), progress := 0#32, elapsed := 0, began := none
    saved := false, ended := false, heldQueue := [], heldRack := [] }
/-- Warp `k` of a workgroup as it begins the launch (R22, R25, R39); its private area starts at `base` of SPACE 1. -/
def Warp.begin (l : Launch) (wg k quad base : Nat) : Warp :=
  let task := decide (spatialWarps l.pkt ≤ k)
  let w := Warp.fresh { wg := wg, warp := k } (BitVec.ofNat 64 l.krec.entry) (if task then fullMask else emptyLanes l.pkt k)
  { w with isTask := task, status := if task then .idle else .running, quad := quad, n := l.krec.n, gmax := l.krec.gmax
           privw := l.krec.privw, spw := l.krec.spw, places := l.pkt.places, privBase := base }
/-- The warps of a workgroup, with private areas from `base` up. -/
def warpsFor (l : Launch) (wg base : Nat) (quads : List Nat) : List Warp :=
  (List.range quads.length).map fun k => Warp.begin l wg k (quads.getD k 0) (base + k * l.krec.privw * 128)

/-- Make the workgroups of a cluster coordinate and replica resident at the given places (R27, R31). -/
def State.addCluster (s : State) (l : Launch) (cl replica : Nat) (first other : Nat) (places : List (Nat × Grant)) : State :=
  (List.range places.length).foldl (fun s rank =>
    let p := places.getD rank default
    let id := first + rank
    let base := (s.ctx l.tag).privUsed
    let g := Wg.fresh l id cl rank replica (if l.paired then other + rank else 0) p.1 p.2
    let s := s.modCtx l.tag fun c => { c with privUsed := c.privUsed + p.2.quads.length * l.krec.privw * 128 }
    { s with wgs := s.wgs ++ [g], parked := s.parked ++ warpsFor l id base p.2.quads }) s

/-- The hardware clusters, other than `not`, on which a cluster coordinate fits now. -/
def State.placesFor (s : State) (tag : Nat) (d : Need) (n : Nat) (not : Option Nat) : List Nat :=
  (List.range 64).filter fun hc => some hc != not && s.fits tag d n hc
/-- A unit of a launch. -/
def ClusterUnit.fresh (id cluster now : Nat) : ClusterUnit :=
  { id := id, cluster := cluster, state := .running, start := now, decided := 0, estimate := 0, overrun := false, late := false
    area := (0, 0) }
/-- Place cluster coordinate `cl` of a launch with its first replica on `hc`; in a paired launch the other replica goes to another
hardware cluster, `other` or the lowest-numbered one that fits (R388; log 65). None where it does not fit. -/
def State.placeCluster (s : State) (l : Launch) (cl hc : Nat) (other : Option Nat := none) : Option State :=
  let d := needOf l.krec l.pkt
  let n := perCluster l.pkt
  if !s.mayPlace l.tag hc then none
  else match placeLike d n (s.roomsOf hc) with
    | none => none
    | some ps =>
      let first := s.nextId
      let s1 := { s with nextId := first + 2 * n }.addCluster l cl 0 first (first + n) ps
      if !l.paired then some s1
      else match other <|> (s1.placesFor l.tag d n (some hc)).head? with
        | none => none
        | some hc2 => (placeLike d n (s1.roomsOf hc2)).map fun ps2 => s1.addCluster l cl 1 (first + n) first ps2

end Sys2Proof.Machine
end

