-- ==== Sys2Proof/Machine/Launch.lean ====
section
/-!
DEFINITION. Launches (R319 to R328, R417): the launch engine reads, checks and admits packets, places clusters, ends workgroups and
completes launches.
-/
namespace Sys2Proof.Machine
open Sys2Proof

/-! ## Packets and kernel records (R322, R96) -/

/-- A dependence of a packet: its enabled counter and target (R322). -/
def packetWait (bs : List Byte) (k : Nat) : Option (Nat × Nat) :=
  let b := numAt bs (0x40 + 8 * k) 1
  if b / 128 = 1 then some (b % 64, numAt bs (0x44 + 8 * k) 4) else none
/-- Read a packet. -/
def parsePacket (bs : List Byte) : Packet :=
  { flags := numAt bs 6 2, krec := numAt bs 8 8, gdim := (numAt bs 0x10 4, numAt bs 0x14 2, numAt bs 0x16 2)
    wdim := (numAt bs 0x18 2, numAt bs 0x1A 2, numAt bs 0x1C 2), cdim := (numAt bs 0x1E 1, numAt bs 0x1F 1, numAt bs 0x20 1)
    stages := numAt bs 0x21 1, schedn := numAt bs 0x22 1, doneCtr := numAt bs 0x23 1, doneAdd := numAt bs 0x24 4
    places := (List.range 4).map fun k => BitVec.ofNat 16 (numAt bs (0x28 + 2 * k) 2)
    schedTab := numAt bs 0x30 8, sizeAddr := numAt bs 0x38 8, waits := (List.range 4).filterMap (packetWait bs)
    pbound := numAt bs 0x60 4, tringn := numAt bs 0x64 4, tquota := numAt bs 0x68 4, launchId := numAt bs 0x6C 4
    tring := numAt bs 0x70 8, hints := numAt bs 0x78 8 }
/-- COOP, PHASE, ORDERED and HINTN (R322). -/
def Packet.coop (p : Packet) : Bool := p.flags % 2 == 1
def Packet.phase (p : Packet) : Bool := p.flags / 2 % 2 == 1
def Packet.ordered (p : Packet) : Bool := p.flags / 4 % 2 == 1
def Packet.hintn (p : Packet) : Nat := p.flags / 8 % 16
/-- The grid keeps R19. -/
def gridOk (g : Nat × Nat × Nat) : Bool := g.1 != 0 && decide (g.1 < 2 ^ 31) && g.2.1 != 0 && g.2.2 != 0
/-- The other dimensions keep R19; the warps are counted with the kernel record. -/
def dimsOk (p : Packet) : Bool :=
  p.wdim.1 != 0 && p.wdim.2.1 != 0 && p.wdim.2.2 != 0 && decide (threadCount p ≤ 1024) && p.cdim.1 != 0 && p.cdim.2.1 != 0
    && p.cdim.2.2 != 0 && p.stages != 0 && decide (p.stages ≤ 8) && decide (perCluster p ≤ 16)
/-- The checks of R323 that need the packet alone; the grid of a packet with a size-class table is checked with its kernel record. -/
def packetOk (bs : List Byte) (p : Packet) : Bool :=
  numAt bs 0 4 == 0x4C4C4543 && numAt bs 4 2 == 1 && decide (p.flags < 2 ^ 11) && p.doneCtr / 64 % 2 == 0
    && ((List.range 4).all fun k => numAt bs (0x40 + 8 * k) 1 / 64 % 2 == 0 && zeroAt bs (0x41 + 8 * k) 3)
    && dimsOk p && decide (p.schedn ≤ 8) && p.schedTab % 32 == 0 && p.sizeAddr % 4 == 0
    && (p.schedn != 0 || gridOk p.gdim) && decide (p.hintn ≤ 8)
/-- The placement-hint list (R322). -/
def hintsOk (n : Nat) (bs : List Byte) : Bool :=
  (List.range n).all fun k => decide (numAt bs (16 * k + 12) 1 ≤ 3) && zeroAt bs (16 * k + 13) 3

/-- Read a kernel record (R96). -/
def parseKrec (bs : List Byte) : Krec :=
  { entry := numAt bs 8 8, codeBase := numAt bs 0x10 8, codeSize := numAt bs 0x18 4, n := numAt bs 0x1C 1, gmax := numAt bs 0x1D 1
    taskw := numAt bs 0x1E 1, nbar := numAt bs 0x1F 1, stashk := numAt bs 0x20 1, accSlots := numAt bs 0x21 1
    wSlots := numAt bs 0x22 1, tags := numAt bs 0x23 1, privw := numAt bs 0x30 4, spw := numAt bs 0x34 4, yieldi := numAt bs 0x38 4
    restart := numAt bs 6 2 % 2 == 1 }
/-- The checks of R98, and those of R19, R20 and R323 that join a packet with its kernel record. A fixed value beside a clear STAGEFIX or WDIMFIX
is not looked at (log 66), nor is a task ring where TASKW is 0 (log 85). -/
def krecOk (bs : List Byte) (k : Krec) (p : Packet) : Bool :=
  let flags := numAt bs 6 2
  let fixedS := numAt bs 0x24 1
  let fixedW := (numAt bs 0x28 2, numAt bs 0x2A 2, numAt bs 0x2C 2)
  numAt bs 0 4 == 0x4B4C4543 && numAt bs 4 2 == 1 && decide (flags < 8)
    && zeroAt bs 0x25 3 && zeroAt bs 0x2E 2 && zeroAt bs 0x3C 4 && zeroAt bs 0x4C 180
    && k.codeSize % 4 == 0 && k.n != 0 && decide (k.n ≤ 240) && decide (k.gmax ≤ k.n) && decide (k.taskw ≤ 31) && decide (k.nbar ≤ 16)
    && decide (k.stashk ≤ 14) && decide (k.accSlots ≤ 16) && decide (k.wSlots ≤ 8) && decide (k.tags ≤ 64) && decide (fixedS ≤ 8)
    && gridOk p.gdim
    -- an entry PC is a multiple of 4 (R74)
    && k.entry % 4 == 0 && decide (k.codeBase ≤ k.entry) && decide (k.entry + 4 ≤ k.codeBase + k.codeSize)
    && (k.spw == 0xFFFFFFFF || decide (k.spw + 64 ≤ k.privw))
    && (flags / 4 % 2 == 0 || (fixedS != 0 && fixedS == p.stages))
    && (flags / 2 % 2 == 0 || (fixedW.1 != 0 && fixedW.2.1 != 0 && fixedW.2.2 != 0 && fixedW == p.wdim))
    && decide (spatialWarps p + k.taskw ≤ 32)
    && (k.taskw == 0 || (p.tringn != 0 && decide (p.tquota ≤ p.tringn) && p.tring % 32 == 0))
/-- A launch of this demand can never be held by the partition of its context (R20, R34, R98); the replicas of a paired one take two hardware
clusters (R388). -/
def State.neverFits (s : State) (tag : Nat) (paired : Bool) (k : Krec) (p : Packet) : Bool :=
  let free := ((List.range 64).filter (s.mayPlace tag)).map fun hc =>
    holds (needOf k p) (perCluster p) 64 ((s.coresOf hc).map fun c => (c, Room.empty))
  !enoughFor paired (if p.coop then clusterTotal p else 1) free

/-! ## Records (R326, R340) -/

/-- Change a queue. -/
def State.modQueue (s : State) (q : Nat) (f : Queue → Queue) : State := { s with queues := updAt s.queues q f }
/-- A queue. -/
def State.queue (s : State) (q : Nat) : Queue := s.queues.getD q Queue.fresh
/-- A launch completion record (R326). -/
def State.completion (s : State) (tag status queue launchId restarts missed : Nat) : State :=
  s.pushRecord tag ([0x20#8] ++ natLE 1 status ++ natLE 2 queue ++ natLE 4 launchId ++ natLE 8 (s.ctr 4) ++ natLE 4 restarts
    ++ natLE 4 missed ++ List.replicate 8 0#8)
/-- A time in core-clock periods as nanoseconds: 1.9 GHz (R16, R340). -/
def nsOf (cycles : Nat) : Nat := cycles * 10 / 19
/-- Change a unit, by its number. -/
def State.modUnit (s : State) (id : Nat) (f : ClusterUnit → ClusterUnit) : State :=
  { s with launches := s.launches.map fun l => { l with units := l.units.map fun u => if u.id = id then f u else u } }
/-- A preemption report (R340), and the count of a miss. -/
def State.report (s : State) (l : Launch) (u : ClusterUnit) (kind : Nat) : State :=
  let took := s.ctr 4 - u.decided
  let miss := u.late || u.overrun || kind == 6 || (l.pkt.pbound != 0 && decide (l.pkt.pbound * 1900 < took))
  let s := if miss then s.modLaunch l.id fun l => { l with missed := l.missed + 1 } else s
  s.pushRecord l.tag ([0x22#8] ++ natLE 1 kind ++ natLE 2 l.queue ++ natLE 4 l.pkt.launchId ++ natLE 4 u.cluster ++ natLE 4 l.pkt.pbound
    ++ natLE 4 (nsOf u.estimate) ++ natLE 4 (nsOf took) ++ natLE 8 (s.ctr 4))

/-! ## The head of a queue (R323, R324, R417) -/

/-- The packet at the head has been dealt with: RIDX passes it. -/
def Queue.pass (q : Queue) : Queue :=
  { q with ridx := q.ridx + 1, head := none, raw := none, hold := none, retried := none, asked := none, metBy := none }
/-- Reject the head (R323): a completion record and a fault record, and on to the next packet. -/
def State.rejectHead (s : State) (qi launchId grade cause : Nat) (off : DWord) (tok : Word) : State :=
  let tag := (s.queue qi).ctx
  ((s.completion tag 2 qi launchId 0 0).pushRecord tag (faultRecord grade cause 2 launchId 0#64 off tok 0xFFF8#16)).modQueue qi Queue.pass

/-- What a read of the launch engine for a queue brings. -/
inductive Got where
  | bytes (bs : List Byte)
  | wait
  | fail (cause : Nat) (off : DWord) (tok : Word)
  deriving DecidableEq, Repr, Inhabited
/-- A read of the launch engine that missed a page: its space, the offset at which it starts, and the page (R417). -/
def readKey (space : Nat) (off : DWord) (page : Nat) : Nat := (space * 2 ^ 64 + off.toNat) * 2 ^ 48 + page
/-- A read for the head of a queue: a page miss holds the queue, unless the read is the repeated one (R417). -/
def State.queueRead (s : State) (qi : Nat) (off : DWord) (n : Nat) : State × Got :=
  let q := s.queue qi
  let r := s.launchBytes q.ctx (Origin.device 4) off n
  match r.2 with
  | .bytes bs => (r.1, .bytes bs)
  | .fault .pageMiss at' =>
    let key := readKey 0 off (at'.toNat / 65536)
    if q.retried = some key then (r.1, .fail 1 at' 0#32)
    else
      let m := r.1.svcReq q.ctx 0 at' (Origin.device 4)
      (m.1.modQueue qi fun q => { q with hold := some (m.2, key) }, .wait)
  | .fault c off => (r.1, .fail c.code off 0#32)
  | .token t => (r.1, .fail (tokenCause t) off t)

/-- The head of a queue is set. -/
def State.setHead (s : State) (qi : Nat) (h : Head) : State := s.modQueue qi fun q => { q with head := some h }
/-- Read and check the kernel record of a head whose grid is known (R98, R20, R34), at its address whatever that is (log 66). -/
def State.headKrec (s : State) (qi : Nat) (h : Head) : State :=
  let id := h.pkt.launchId
  let r := s.queueRead qi (BitVec.ofNat 64 h.kaddr) 256
  match r.2 with
  | .wait => r.1
  | .fail c off t => r.1.rejectHead qi id (causeGrade c) c off t
  | .bytes bs =>
    let k := parseKrec bs
    let p := { h.pkt with gdim := h.gdim }
    let tag := (s.queue qi).ctx
    if !krecOk bs k p || r.1.neverFits tag (s.ctx tag).csPair k p then r.1.rejectHead qi id 2 8 0#64 0#32
    else r.1.setHead qi { h with pkt := p, krec := some k }

/-- Once resources have left a partition, the heads that it can no longer hold are rejected, and none of them waits (R20, R34). -/
def State.rejectUnfit (s : State) : State :=
  (List.range s.queues.length).foldl (fun s qi => match (s.queue qi).head with
    | some h => match h.krec with
      | some k => if s.neverFits (s.queue qi).ctx (s.ctx (s.queue qi).ctx).csPair k h.pkt then s.rejectHead qi h.pkt.launchId 2 8 0#64 0#32 else s
      | none => s
    | none => s) s

/-- A packet's head with no grid chosen. A dependence that was met before its queue was disabled stays met (R325). -/
def State.blankHead (s : State) (qi : Nat) (p : Packet) (hints : List Byte) : Head :=
  let q := s.queue qi
  let met := match q.metBy with
    | some (tag, m) => if tag = q.ctx then m else []
    | none => []
  Head.latch { pkt := p, krec := none, met := met, chosen := false, schedIx := 0, sizeWord := 0#32, gdim := p.gdim, kaddr := p.krec,
               hintList := hints } (s.ctx q.ctx)
/-- Go on with a packet that keeps the checks of R323: choose its grid and kernel record, or leave that to SIZE_CLASS_SELECT. -/
def State.chooseHead (s : State) (qi : Nat) (p : Packet) (hints : List Byte) : State :=
  let h := s.blankHead qi p hints
  let use (h : Head) : State := (s.setHead qi h).headKrec qi h
  if p.schedn = 0 then use { h with chosen := true }
  else if p.phase then s.setHead qi h
  else match (s.queue qi).selects.find? fun x => x.tab == p.schedTab with
    | none => s.rejectHead qi p.launchId 2 8 0#64 0#32
    | some x => use { h with chosen := true, schedIx := x.ix, sizeWord := x.word, gdim := x.gdim, kaddr := x.kaddr }
/-- Whether the packet at the head is at or above the drain mark (R341). -/
def Queue.drained (q : Queue) : Bool := q.drain && (match q.mark with
  | some m => decide (0 ≤ (q.ridx - m).toInt)
  | none => false)
/-- Check a packet that has been read (R323, R341). -/
def State.checkPacket (s : State) (qi : Nat) (bs : List Byte) : State :=
  let p := parsePacket bs
  let q := s.queue qi
  if q.drained then (s.completion q.ctx 1 qi p.launchId 0 0).modQueue qi Queue.pass
  else if !packetOk bs p then s.rejectHead qi p.launchId 2 8 0#64 0#32
  else if p.hintn = 0 ∨ p.hints = 0 then s.chooseHead qi p []
  else
    let r := s.queueRead qi (BitVec.ofNat 64 p.hints) (16 * p.hintn)
    match r.2 with
    | .wait => r.1
    | .fail c off t => r.1.rejectHead qi p.launchId (causeGrade c) c off t
    | .bytes hs => if hintsOk p.hintn hs then r.1.chooseHead qi p hs else r.1.rejectHead qi p.launchId 2 8 0#64 0#32
/-- The packet at the head has been read: Harog reads it once (R319). -/
def State.gotPacket (s : State) (qi : Nat) (bs : List Byte) : State :=
  (s.modQueue qi fun q => { q with raw := some bs }).checkPacket qi bs
/-- The function that holds a queue: the virtual function that VFASSIGN gave it to, or the physical function that claimed it (R353). -/
def State.queueFunc (s : State) (qi : Nat) : Nat :=
  ((List.range 18).find? fun k => decide (2 ≤ k) && (s.svc.funcs.getD k default).queues.contains qi).getD ((s.queue qi).claim.getD 0)
/-- Ask the host for a packet of a ring in SPACE 2 (R320, log 25). -/
def State.askPacket (s : State) (qi : Nat) (off : DWord) : State :=
  let q := s.queue qi
  let l := s.lookup none 4 q.ctx 2 off false
  let s := l.1
  match l.2 with
  | .fault .pageMiss =>
    let key := readKey 2 off (off.toNat / 65536)
    if q.retried = some key then s.rejectHead qi 0 0 1 off 0#32
    else
      let m := s.svcReq q.ctx 2 off { Origin.device 4 with addr := some (off, q.place) }
      m.1.modQueue qi fun q => { q with hold := some (m.2, key) }
  | .fault c => s.rejectHead qi 0 (causeGrade c.code) c.code off 0#32
  | .leaf t =>
    let port := s.portOf q.ctx
    let hpa := t.frame + off.toNat % 65536
    let r : Request :=
      { id := s.nextId, warp := { wg := 0, warp := 0 }, res := none, copy := none, queue := some qi, lanes := [], node := hostNode port
        off := BitVec.ofNat 64 hpa, raw := off, place := q.place, size := 128, sub := none, atom := none, issued := s.ctr 4, die := 4
        tag := q.ctx, pc := 0#64, heldSeq := 0 }
    (({ s with nextId := s.nextId + 1 }.modFab fun f => { f with requests := f.requests ++ [r] }).modQueue qi fun q =>
      { q with asked := some r.id }).send (.hostRead (s.queueFunc qi) port r.id hpa 128)
/-- Read the packet at RIDX and check it. -/
def State.readPacket (s : State) (qi : Nat) : State :=
  let q := s.queue qi
  let off := q.base + BitVec.ofNat 64 (q.ridx.toNat % 2 ^ q.log2n * 128)
  let node := q.place.toNat / 8
  let space := q.place.toNat % 8
  if !(node == 0x1FFF || node == s.fabric.node) || !(space == 0 || space == 2) then s.rejectHead qi 0 2 3 off 0#32
  else if space = 2 then s.askPacket qi off
  else
    let r := s.queueRead qi off 128
    match r.2 with
    | .wait => r.1
    | .fail c off t => r.1.rejectHead qi 0 (causeGrade c) c off t
    | .bytes bs => r.1.gotPacket qi bs

/-- Whether a queue's next packet may be taken (R319, R321, R323). -/
def State.mayTake (s : State) (q : Queue) : Bool :=
  q.en && q.head.isNone && q.raw.isNone && q.hold.isNone && q.asked.isNone && q.ridx != q.widx && s.svc.cpOk && s.svc.health != 3
/-- LAUNCH_PACKET_TAKE (R323). -/
def execLaunchPacketTake (q : Nat) (s : State) : Out := .next (if s.mayTake (s.queue q) then s.readPacket q else s)

/-- The size-class table (R36): an entry's MAXSIZE, and whether its reserved fields are 0. -/
def schedMax (bs : List Byte) (k : Nat) : Nat := numAt bs (32 * k) 4
def schedClean (bs : List Byte) (k : Nat) : Bool := zeroAt bs (32 * k + 12) 4 && zeroAt bs (32 * k + 24) 8
/-- The entry that serves a size: the smallest MAXSIZE that is at least the size, the lower index of equals (R37). -/
def schedPick (bs : List Byte) (size : Nat) : List Nat → Option Nat
  | [] => none
  | k :: ks =>
    match schedPick bs size ks with
    | none => if size ≤ schedMax bs k then some k else none
    | some j => if size ≤ schedMax bs k ∧ schedMax bs k ≤ schedMax bs j then some k else some j
/-- The size word of a phase-start head, read once with acquire order at device scope (R37): what was read before, or a read. -/
def State.sizeWord (s : State) (qi : Nat) (h : Head) : State × Got :=
  match h.size with
  | some w => (s, .bytes (natLE 4 w.toNat))
  | none =>
    let r := (s.modMem DevMem.sync).queueRead qi (BitVec.ofNat 64 h.pkt.sizeAddr) 4
    match r.2 with
    | .bytes zs => (r.1.setHead qi { h with size := some (BitVec.ofNat 32 (leNat zs)) }, r.2)
    | _ => r
/-- Select the entry of a phase-start head (R36, R37, R324). A fault of the size word rejects with grade REJECT (R37; log 26). One that is
rejected leaves its table with no selection, and the selections of other tables stand (log 84). -/
def State.selectHead (s : State) (qi : Nat) (h : Head) : State :=
  let p := h.pkt
  let forget (s : State) : State := s.modQueue qi fun q => { q with selects := q.selects.filter fun y => y.tab != p.schedTab }
  let z := s.sizeWord qi h
  match z.2 with
  | .wait => z.1
  | .fail c off t => (forget z.1).rejectHead qi p.launchId 2 c off t
  | .bytes zs =>
    let r := z.1.queueRead qi (BitVec.ofNat 64 p.schedTab) (32 * p.schedn)
    match r.2 with
    | .wait => r.1
    | .fail c off t => (forget r.1).rejectHead qi p.launchId (causeGrade c) c off t
    | .bytes bs =>
      let s := forget r.1
      let bad (s : State) : State := s.rejectHead qi p.launchId 2 8 0#64 0#32
      let size := leNat zs
      if !(List.range p.schedn).all (schedClean bs) then bad s
      else match schedPick bs size (List.range p.schedn) with
        | none => bad s
        | some k =>
          let g := (numAt bs (32 * k + 4) 4, numAt bs (32 * k + 8) 2, numAt bs (32 * k + 10) 2)
          let x : Select := { tab := p.schedTab, ix := k, word := BitVec.ofNat 32 size, gdim := g, kaddr := numAt bs (32 * k + 16) 8 }
          let s := s.modQueue qi fun q => { q with selects := x :: q.selects }
          let h := { h with chosen := true, schedIx := k, sizeWord := x.word, gdim := g, kaddr := x.kaddr, size := some x.word }
          (s.setHead qi h).headKrec qi h
/-- Whether a head waits for its size class to be selected: its dependences are met (R37). -/
def Queue.maySelect (q : Queue) : Bool := match q.head with
  | some h => q.en && !h.chosen && h.met.all id && q.hold.isNone
  | none => false
/-- SIZE_CLASS_SELECT (R37). -/
def execSizeClassSelect (q : Nat) (s : State) : Out :=
  .next (match (s.queue q).head with
    | some h => if (s.queue q).maySelect then s.selectHead q h else s
    | none => s)

/-- Whether the request that a queue's read waits for is resolved. -/
def State.readServed (s : State) (q : Queue) : Bool := match q.hold with
  | some (n, _) => q.en && (s.ctx q.ctx).resolved n
  | none => false
/-- LAUNCH_READ_RETRY (R417): the read is repeated, and the head goes on from there. -/
def execLaunchReadRetry (q : Nat) (s : State) : Out :=
  .next (
    let x := s.queue q
    if !s.readServed x then s
    else
      let s := s.modQueue q fun x => { x with hold := none, retried := x.hold.map Prod.snd }
      match x.head, x.raw with
      | some h, _ => if h.chosen then s.headKrec q h else s.selectHead q h
      | none, some bs => s.checkPacket q bs
      | none, none => s.readPacket q)

/-! ## Admission (R328, R34) -/

/-- Whether the head of queue `qi` is eligible (R325). -/
def State.eligible (s : State) (qi : Nat) : Bool :=
  let q := s.queue qi
  q.en && q.hold.isNone && (match q.head with
    | some h => h.chosen && h.krec.isSome && h.met.all id && (!h.pkt.ordered || !(s.launches.any fun l => l.queue == qi))
    | none => false)
/-- The launch that an eligible head becomes. -/
def State.launchFrom (s : State) (qi : Nat) (h : Head) (k : Krec) : Launch :=
  let q := s.queue qi
  let paired := (s.ctx q.ctx).csPair
  { id := s.nextId, queue := qi, tag := q.ctx, pkt := h.pkt, krec := k, schedIx := h.schedIx, sizeWord := h.sizeWord
    paired := paired, placed := 0, units := [], restarts := 0, missed := 0, outstanding := 0, ringHead := 0, ringTail := 0
    ring := [], ringWait := [], ringReq := none
    gbars := if h.pkt.coop then
      List.replicate (if paired then 2 else 1) (Bar.fresh (spatialWarps h.pkt * perCluster h.pkt * clusterTotal h.pkt)) else []
    hintList := h.hintList }
/-- The hardware cluster, other than `not`, that can hold the most cluster coordinates of a launch now, the lowest-numbered of equals; none
where none can hold one. -/
def State.roomiest (s : State) (l : Launch) (not : Option Nat) : Option Nat :=
  let n := perCluster l.pkt
  let all := (s.placesFor l.tag (needOf l.krec l.pkt) n not).map fun hc => (hc, holds (needOf l.krec l.pkt) n 64 (s.roomsOf hc))
  (all.foldl (fun (m : Option (Nat × Nat)) x => match m with
    | none => some x
    | some y => if y.2 < x.2 then some x else some y) none).map Prod.fst
/-- Place every cluster of a cooperative launch, or none (R34): each on the lowest-numbered hardware cluster that fits, and of a paired launch
the two replicas of each on the two with the most room, which finds a placement wherever there is one (R388; log 65). -/
def State.placeWhole (s : State) (l : Launch) : Option State :=
  (List.range (clusterTotal l.pkt)).foldl (fun r cl => r.bind fun s =>
    if l.paired then (s.roomiest l none).bind fun hc => (s.roomiest l (some hc)).bind fun hc2 => s.placeCluster l cl hc (some hc2)
    else ((s.placesFor l.tag (needOf l.krec l.pkt) (perCluster l.pkt) none).head?).bind fun hc => s.placeCluster l cl hc) (some s)
/-- The hardware clusters on which the next cluster coordinate of a launch can be placed. -/
def State.placesNow (s : State) (l : Launch) : List Nat :=
  (s.placesFor l.tag (needOf l.krec l.pkt) (perCluster l.pkt) none).filter fun hc => (s.placeCluster l l.placed hc).isSome
/-- Whether an eligible head can be admitted now (R328). -/
def State.admissible (s : State) (qi : Nat) : Bool :=
  s.eligible qi && (match (s.queue qi).head with
    | some h => match h.krec with
      | some k =>
        let l := s.launchFrom qi h k
        let s := { s with launches := s.launches ++ [l] }
        if h.pkt.coop then (s.placeWhole l).isSome else !(s.placesNow l).isEmpty
      | none => false
    | none => false)

/-- The share of each class in a round (R328). -/
def classShare (c : Nat) : Nat := [8, 4, 2, 1].getD c 1
/-- WEIGHT, with 0 read as 1. -/
def Queue.share (q : Queue) : Nat := if q.weight = 0 then 1 else q.weight
/-- The queue that class `c` serves next: the last one it served while that one's WEIGHT lasts in this round, else the next in number that it has
not visited in this round. `used` counts its admissions of the round. -/
def State.classNext (s : State) (c : Nat) (used : List (Nat × Nat)) : Option Nat :=
  let last := s.rounds.last.getD c 255
  let ok (qi : Nat) : Bool := (s.queue qi).cls == c && s.admissible qi
  let more (qi : Nat) : Bool := used.any fun u => u.1 == qi && decide (u.2 < (s.queue qi).share)
  if ok last && more last then some last
  else ((List.range 256).map fun k => (last + 1 + k) % 256).find? fun qi => ok qi && !(used.any fun u => u.1 == qi)
/-- The queue whose head is admitted next, and the rounds after it (R328). -/
def State.nextAdmit (s : State) : Option (Nat × Rounds) :=
  (List.range 5).findSome? fun k =>
    let c := (s.rounds.cls + k) % 4
    let left := if k = 0 then s.rounds.left else classShare c
    let used := if k = 0 then s.rounds.used else []
    if left = 0 then none
    else (s.classNext c used).map fun qi =>
      let n := ((used.find? fun u => u.1 == qi).map Prod.snd).getD 0
      (qi, { cls := c, left := left - 1, last := updAt s.rounds.last c fun _ => qi
             used := (qi, n + 1) :: used.filter fun u => u.1 != qi })
/-- LAUNCH_ADMIT (R328, R34): the head becomes a launch; a cooperative launch is placed whole, and its one unit reports cluster index 0
(log 75). -/
def execLaunchAdmit (q : Nat) (s : State) : Out :=
  .next (match s.nextAdmit, (s.queue q).head with
    | some (qi, rounds), some h =>
      match h.krec with
      | none => s
      | some k =>
        if qi != q then s
        else
          let l := s.launchFrom q h k
          let x := { s with nextId := s.nextId + 2, launches := s.launches ++ [l], rounds := rounds }.modQueue q Queue.pass
          -- a met dependence is an acquire at system scope for every access of the launch (R325)
          let x := if h.pkt.waits.isEmpty then x else x.modMem fun d => { d.sync with peers := [] }
          if !h.pkt.coop then x
          else match x.placeWhole l with
            | none => s
            | some t => t.modLaunch l.id fun x =>
                { x with placed := clusterTotal l.pkt, units := [ClusterUnit.fresh (l.id + 1) 0 (s.ctr 4)] }
    | _, _ => s)

/-- CLUSTER_PLACE (R27, R29, R31): the next cluster coordinate, in linear order, becomes resident on a hardware cluster. -/
def execClusterPlace (launch die cluster : Nat) (s : State) : Out :=
  .next (match s.launches.find? fun l => l.id == launch with
    | none => s
    | some l =>
      if l.pkt.coop || decide (clusterTotal l.pkt ≤ l.placed) then s
      else match s.placeCluster l l.placed (die * 16 + cluster) with
        | none => s
        | some t =>
          { t with nextId := t.nextId + 1 }.modLaunch launch fun x =>
            { x with placed := x.placed + 1, units := x.units ++ [ClusterUnit.fresh t.nextId l.placed (s.ctr 4)] })

/-! ## Ends (R24, R40, R188, R327) -/

/-- The workgroups of a unit: a cluster coordinate with all its stages and replicas, or the whole launch (R337, R388). -/
def State.unitWgs (s : State) (l : Launch) (u : ClusterUnit) : List Wg :=
  s.wgs.filter fun g => g.launch == l.id && (l.pkt.coop || linearCluster l.pkt g.cl == u.cluster)
/-- The unit that a workgroup belongs to. -/
def State.unitOf (s : State) (g : Wg) : Option ClusterUnit :=
  let l := s.launchOf g.launch
  l.units.find? fun u => l.pkt.coop || linearCluster l.pkt g.cl == u.cluster
/-- Engine work of a workgroup is still to be done: entries, copies, mappings, tags (R188, R243). -/
def State.engineBusy (s : State) (g : Wg) : Bool :=
  (s.coreAt g.core).queue.any (fun e => e.wg == g.id) || s.copies.any (fun c => c.wg == g.id) || s.smaps.any (fun j => j.wg == g.id)
    || s.tagDones.any (fun t => t.wg == g.id) || g.tags.any fun t => t.state == 1
/-- The workgroups of a launch on a core that have not ended. -/
def State.liveOn (s : State) (launch core : Nat) : List Wg :=
  s.wgs.filter fun g => g.launch == launch && g.core == core && !g.saved && !g.ended
/-- Whether a workgroup may end (R24, R40, R188). -/
def State.mayEnd (s : State) (g : Wg) : Bool :=
  !g.saved && !g.ended
    && ((s.warpsOf g.id).all fun w => w.held.isNone && w.late.isEmpty && (if w.isTask then w.status == .idle else w.status == .ended))
    && !s.engineBusy g
    && (s.queuedOn g.core g.launch).isEmpty
    && (!((s.launchOf g.launch).ring.isEmpty && (s.launchOf g.launch).ringWait.isEmpty) →
        1 < (s.wgs.filter fun h => h.launch == g.launch && !h.ended).length)
/-- Remove the warps of a workgroup; the issuing warp's place is left to an ended one. -/
def State.dropWarps (s : State) (wg : Nat) : State :=
  { s with parked := s.parked.filter fun w => w.ref.wg != wg
           warp := if s.warp.ref.wg = wg then Warp.empty else s.warp }
/-- The kind of report of a unit whose preemption has been decided and that ends before it is carried out: that of its outcome, so that a miss
stays recorded (R338, R340; log 59). -/
def ClusterUnit.reportKind (u : ClusterUnit) : Option Nat := match u.state with
  | .draining => some 1
  | .saving => some (if u.overrun then 4 else if u.late then 5 else 2)
  | .flushing => some 3
  | _ => none
/-- WORKGROUP_END (R24, R31, R209): its mappings are written back and withdrawn, and it releases what it held. -/
def execWorkgroupEnd (wg : Nat) (s : State) : Out :=
  .next (match s.wgOf wg with
    | none => s
    | some g =>
      if !s.mayEnd g then s
      else
        let s := (s.unmapAll wg).modWg wg fun g =>
          { g with ended := true, stash := Memory.empty, acc := [], wslot := [], tags := [], bars := [] }
        let s := s.dropWarps wg
        let l := s.launchOf g.launch
        match s.unitOf g with
        | none => s
        | some u =>
          if (s.unitWgs l u).all Wg.ended then
            let s := s.modUnit u.id fun u => { u with state := .ended }
            match u.reportKind with
            | some k => s.report l u k
            | none => s
          else s)

/-- Whether a launch has completed: every workgroup has ended and every store it performed has been performed at system scope
(R327). -/
def State.complete (s : State) (l : Launch) : Bool :=
  let mine (w : WarpRef) : Bool := s.wgs.any fun g => g.id == w.wg && g.launch == l.id
  l.placed == clusterTotal l.pkt && (s.wgs.all fun g => g.launch != l.id || g.ended)
    && !(s.cores.any fun c => c.storeQ.any fun e => mine e.warp) && !(s.svc.observing.any fun o => mine o.2)
    && !(s.fabric.sends.any fun j => mine j.warp)
    -- an atomic whose answer has not come may not have been performed yet
    && !(s.fabric.requests.any fun r => mine r.warp && r.atom.isSome)
/-- A launch leaves, with its workgroups; the private areas of a context with no launch are free again. -/
def State.dropLaunch (s : State) (l : Launch) : State :=
  let gone (w : WarpRef) : Bool := s.wgs.any fun g => g.id == w.wg && g.launch == l.id
  let s := { s with
    launches := s.launches.filter fun x => x.id != l.id
    wgs := s.wgs.filter fun g => g.launch != l.id
    parked := s.parked.filter fun w => !gone w.ref
    warp := if gone s.warp.ref then Warp.empty else s.warp }
  if s.launches.any fun x => x.tag == l.tag then s else s.modCtx l.tag fun c => { c with privUsed := 0 }
/-- LAUNCH_COMPLETE (R327): DONECTR, then the completion record. -/
def execLaunchComplete (launch : Nat) (s : State) : Out :=
  .next (match s.launches.find? fun l => l.id == launch with
    | none => s
    | some l =>
      if !s.complete l then s
      else
        let s := s.modMem DevMem.sync
        let s := if l.pkt.doneCtr / 128 = 1 then
          s.countEvent l.tag (l.pkt.doneCtr % 64) fun x => x + BitVec.ofNat 32 l.pkt.doneAdd else s
        (s.completion l.tag 0 l.queue l.pkt.launchId l.restarts l.missed).dropLaunch l)

end Sys2Proof.Machine
end

