-- ==== Sys2Proof/Machine/Image.lean ====
section
/-!
DEFINITION. Save areas (R71, R72, R185, R186, R255, R339, R380): the bytes in which a workgroup is saved.
-/
namespace Sys2Proof.Machine
open Sys2Proof

/-- `n` zero bytes. -/
def zeros (n : Nat) : List Byte := List.replicate n 0#8
/-- A part brought up to `n` bytes. -/
def padTo (n : Nat) (bs : List Byte) : List Byte := bs ++ zeros (n - bs.length)
/-- A part brought up to the next 256-byte boundary (R339). -/
def align256 (bs : List Byte) : List Byte := padTo ((bs.length + 255) / 256 * 256) bs
/-- `n` bytes of bits, bit `i` at byte i / 8. -/
def bitBytes (n : Nat) (f : Nat → Bool) : List Byte :=
  (List.range n).map fun k => BitVec.ofNat 8 ((List.range 8).foldl (fun x i => if f (8 * k + i) then x + 2 ^ i else x) 0)
/-- Words, a poisoned one as its token. -/
def valBytes (vs : List Val) : List Byte := vs.flatMap fun v => natLE 4 v.bits.toNat

/-! ## Warps (R71, R72) -/

/-- The pending-wait record of R72. -/
def Warp.waitBytes (w : Warp) : List Byte :=
  let fixed : Nat := match w.wait with
    | .bar _ q => q
    | .gbar q => q
    | .waitv => w.waitv.timeout
    | _ => 0
  let tags : Nat := match w.wait with
    | .twait _ m _ => m.toNat
    | _ => 0
  let v := w.waitv
  let isV := w.wait == .waitv
  let lane (f : Nat → Nat) (l : Nat) : Nat := if isV && w.waitMask.has l then f l else 0
  if w.wait == .none then zeros 512
  else padTo 512 (natLE 4 w.waitWord.toNat ++ natLE 4 w.waitMask.toNat ++ natLE 4 fixed
    ++ natLE 4 (if isV then v.fin.toNat else 0)
    ++ natLE 4 (if isV then (maskOf fun l => v.fin.has l && (laneOf v.vals l).psn).toNat else 0)
    ++ zeros 4 ++ natLE 8 tags
    ++ ((List.range 32).flatMap fun l => natLE 8 (lane (fun l => (v.offs.getD l 0#64).toNat) l))
    ++ ((List.range 32).flatMap fun l => natLE 4 (lane (fun l => (laneOf v.vals l).bits.toNat) l)))

/-- A register in the payload of R71: nothing where it is dead. -/
def Reg.bytes (r : Reg) : List Byte :=
  if r.dead then []
  else
    (if r.lanes.any Val.psn then natLE 4 (maskOf fun l => (laneOf r.lanes l).psn).toNat else [])
      ++ (match r.shape with
        | .u => natLE 4 (laneOf r.lanes 0).bits.toNat
        | .a => natLE 4 (laneOf r.lanes 0).bits.toNat ++ natLE 4 ((laneOf r.lanes 1).bits - (laneOf r.lanes 0).bits).toNat
        | .g => valBytes ((List.range 32).map (laneOf r.lanes)))

/-- A warp's save area (R71). -/
def Warp.bytes (w : Warp) : List Byte :=
  let reg (n : Nat) : Reg := w.cab.getD n Reg.fresh
  let flag (b : Bool) (n : Nat) : Nat := if b then n else 0
  let shape (n : Nat) : Nat := match (reg n).shape with
    | .u => 0
    | .a => 1
    | .g => 2
  padTo 0x1A0 (((List.range 32).flatMap fun l => natLE 8 (w.pcOf l).toNat) ++ natLE 4 w.exited.toNat ++ natLE 4 w.fpmode.toNat
      ++ natLE 4 w.fpstat.toNat ++ natLE 4 w.chan.toNat ++ natLE 4 w.tsize
      ++ natLE 4 (flag w.region.flag 1 + flag w.region.opened 2 + flag (w.wait != .none) 4 + 8 * (w.divCount % 1024))
      ++ natLE 8 w.region.rpc.toNat
      ++ bitBytes 32 (fun n => decide (n < w.n) && (reg n).dead)
      ++ bitBytes 64 (fun i => decide (i / 2 < w.n) && (shape (i / 2)).testBit (i % 2))
      ++ bitBytes 32 (fun n => decide (n < w.n) && (reg n).lanes.any Val.psn))
    ++ zeros 96
    ++ (w.spill.flatMap fun e => natLE 4 e.code ++ natLE 4 e.mask.toNat)
    ++ w.waitBytes ++ ((List.range w.n).flatMap fun n => (reg n).bytes)

/-! ## The engine area (R185, R186) -/

/-- A queue record (R186). -/
def MatEntry.bytes (e : MatEntry) : List Byte :=
  let put := e.kind == .mput
  let vals := if put || e.kind == .mscale then e.vals else []
  let flag (b : Bool) (n : Nat) : Nat := if b then n else 0
  let scales (l : List Nat) : List Byte := padTo 64 (l.map (BitVec.ofNat 8))
  let mid : List Byte := match e.kind with
    | .mloop => scales e.aScale ++ scales e.bScale
    | .mput => valBytes ((List.range 32).map fun l => if e.act.has l then laneOf e.rows l else Val.zero)
    | _ => zeros 128
  padTo 0x40 (natLE 4 e.word.toNat ++ natLE 4 e.warp.warp ++ natLE 4 e.done
      ++ natLE 4 (e.rm % 8 + flag e.sat 8 + flag e.begun 16) ++ natLE 4 e.a0
      ++ padTo 16 (e.ctl.flatMap fun w => natLE 4 w.toNat) ++ natLE 4 (if put then e.act.toNat else 0))
    ++ mid ++ bitBytes 8 (fun n => (vals.getD n Val.zero).psn)
    ++ padTo 56 (natLE 4 (if put then (maskOf fun l => e.act.has l && (laneOf e.rows l).psn).toNat else 0))
    ++ padTo 256 (valBytes vals)

/-- The engine save area of a workgroup with the given warps and queue records (R185). The arms are those that the warps hold: one that a queued
MLOOP has taken stands nowhere in it (log 79). -/
def engineBytesOf (g : Wg) (ws : List Warp) (q : List MatEntry) : List Byte :=
  let arm (k : Nat) : List Byte := match (ws.find? fun w => w.ref.warp == k).bind Warp.perturb with
    | some (ix, v) => natLE 4 ix ++ natLE 4 v.bits.toNat ++ natLE 4 (1 + if v.psn then 2 else 0) ++ zeros 4
    | none => zeros 16
  let slot (rows : List (List Val)) : List Byte :=
    (rows.flatMap valBytes) ++ bitBytes 512 fun n => ((rows.getD (n / 64) []).getD (n % 64) Val.zero).psn
  let weight (m : Memory) : List Byte :=
    ((List.range 1024).flatMap fun k => match m.token (32 * k) with
      | some t => natLE 4 t.toNat ++ m.bytes (32 * k + 4) 28
      | none => m.bytes (32 * k) 32)
      ++ bitBytes 128 fun k => (m.token (32 * k)).isSome
  padTo 0x200 (natLE 4 g.acc.length ++ natLE 4 g.wslot.length ++ natLE 4 q.length) ++ ((List.range 32).flatMap arm)
    ++ (g.acc.flatMap slot) ++ (g.wslot.flatMap weight) ++ (q.flatMap MatEntry.bytes)

/-! ## The copy area (R255) -/

/-- A progress record. -/
def Copy.bytes (c : Copy) : List Byte :=
  let flag (b : Bool) (n : Nat) : Nat := if b then n else 0
  padTo 0x40 (natLE 4 c.word.toNat ++ natLE 4 c.warp.warp
      ++ natLE 4 (flag c.arr.isSome 1 + (c.arr.getD 0 % 16) * 2 + (c.chan % 16) * 32 + flag c.record.isSome 512)
      ++ padTo 16 (c.args.flatMap fun w => natLE 4 w.toNat) ++ natLE 8 c.recAddr ++ natLE 8 c.sectors)
    ++ padTo 192 ((c.record.getD []).take 192)
/-- The copy save area of a workgroup with the given copies in flight. -/
def copyBytesOf (g : Wg) (cs : List Copy) : List Byte :=
  padTo 0x200 (natLE 4 g.tags.length ++ natLE 4 cs.length)
    ++ (g.tags.flatMap fun t => natLE 4 (t.state + if t.psn then 4 else 0) ++ natLE 4 t.causes.toNat)
    ++ (cs.flatMap Copy.bytes)

/-! ## The Rack area (R380) -/

/-- A Rack entry. -/
def RackEntry.bytes (e : RackEntry) : List Byte :=
  let flag (b : Bool) (n : Nat) : Nat := if b then n else 0
  natLE 8 (e.off.getD 0#64).toNat ++ natLE 2 e.place.toNat
    ++ natLE 1 (flag e.off.isSome 1 + flag e.poisoned 2 + flag e.atom 4 + flag e.held 8 + 16 * (e.chan % 16))
    ++ natLE 1 (e.ord % 4 + 4 * (e.scope % 8)) ++ natLE 4 e.mask.toNat ++ natLE 8 e.seq ++ natLE 1 e.warp.warp
    ++ natLE 1 e.pmask.toNat ++ zeros 2 ++ natLE 4 e.token.toNat ++ padTo 32 (e.data.take 32)
/-- The region state of a warp in the Rack area. -/
def Region.bytes (r : Region) : List Byte :=
  natLE 8 r.causes.toNat ++ natLE 8 r.sreq ++ natLE 8 r.rseq ++ natLE 4 r.first.toNat
    ++ natLE 1 ((if r.nsvc then 1 else 0) + 2 * (r.replays % 16) + if r.mismatched then 32 else 0) ++ zeros 3
    ++ natLE 4 r.pcount ++ zeros 28
/-- The Rack area, where R380 has one. -/
def rackBytesOf (paired : Bool) (ws : List Warp) (es : List RackEntry) : List Byte :=
  if !(paired || !es.isEmpty || ws.any fun w => w.region.opened || w.region.flag) then []
  else
    padTo 0x40 (natLE 4 es.length)
      ++ ((List.range 32).flatMap fun k => match ws.find? fun w => w.ref.warp == k with
        | some w => w.region.bytes
        | none => zeros 64)
      ++ (es.flatMap RackEntry.bytes)

/-! ## The save area of a workgroup (R339) -/

/-- The bytes from 0x0000 to 0x13FF. -/
def headBytes (l : Launch) (g : Wg) (ws : List Warp) (elapsed : Nat) : List Byte :=
  let entry (m : SmapEntry) : List Byte :=
    natLE 16 ((if m.valid then 1 else 0) + (if m.pre then 2 else 0) + m.len / 4096 * 2 ^ 60 + m.soff / 4096 * 2 ^ 68
      + m.gbase / 4096 * 2 ^ 76)
  let lanes (k b : Nat) : List Byte := match g.bars[b]?, ws.find? fun w => w.ref.warp == k with
    | some x, some w => natLE 4 (x.arrOf w.ref).toNat ++ natLE 4 ((x.lastOf w.ref).getD 0xFFFFFFFF#32).toNat
    | _, _ => zeros 8
  padTo 64 (natLE 4 l.pkt.launchId ++ natLE 4 (rankOf l.pkt g) ++ natLE 4 g.cl.1 ++ natLE 4 g.cl.2.1 ++ natLE 4 g.cl.2.2
      ++ natLE 4 g.stage ++ natLE 4 ws.length ++ natLE 8 elapsed ++ natLE 4 g.progress.toNat)
    ++ (g.smap.flatMap entry)
    ++ padTo 256 (g.bars.flatMap fun b => natLE 4 b.expect ++ natLE 4 b.pend ++ natLE 4 b.phase.toNat ++ zeros 4)
    ++ zeros 192 ++ ((List.range 32).flatMap fun k => (List.range 16).flatMap (lanes k))

/-- The warps of a workgroup, in warp order. -/
def State.warpsInOrder (s : State) (wg : Nat) : List Warp :=
  let ws := s.warpsOf wg
  (List.range 32).filterMap fun k => ws.find? fun w => w.ref.warp == k
/-- The elapsed cycles of a workgroup (R337). -/
def State.elapsedOf (s : State) (g : Wg) : Nat := g.elapsed + (match g.began with
  | some t => s.ctr (dieOf g.core) - t
  | none => 0)
/-- The queue records, the copies and the Rack entries of a resident workgroup. -/
def State.recordsOf (s : State) (g : Wg) : List MatEntry := (s.coreAt g.core).queue.filter fun e => e.wg == g.id
def State.copiesOf (s : State) (g : Wg) : List Copy := s.copies.filter fun c => c.wg == g.id
def State.entriesOf (s : State) (g : Wg) : List RackEntry := (s.coreAt g.core).rack.filter fun e => e.warp.wg == g.id
/-- The parts of a workgroup's save area before and after its stash. -/
def State.saveHead (s : State) (g : Wg) : List Byte := headBytes (s.launchOf g.launch) g (s.warpsInOrder g.id) (s.elapsedOf g)
def State.saveTail (s : State) (g : Wg) : List Byte :=
  let ws := s.warpsInOrder g.id
  let rack := rackBytesOf (s.launchOf g.launch).paired ws (s.entriesOf g)
  let copy := copyBytesOf g (s.copiesOf g)
  (ws.flatMap fun w => align256 w.bytes) ++ align256 (engineBytesOf g ws (s.recordsOf g))
    ++ (if rack.isEmpty then copy else align256 copy ++ rack)
/-- The stash bytes of a workgroup. -/
def State.stashOf (s : State) (g : Wg) : Nat := (s.launchOf g.launch).krec.stashk * 65536
/-- The size of a workgroup's save area. -/
def State.saveSize (s : State) (g : Wg) : Nat := 0x1400 + s.stashOf g + (s.saveTail g).length
/-- The sector writes of a workgroup's save area at byte `a`. -/
def State.saveWrites (s : State) (g : Wg) (a : Nat) : List SectorWrite :=
  let n := s.stashOf g
  let tail := s.saveTail g
  sectorRun 200 a (s.saveHead g)
    ++ ((List.range (n / 32)).map fun k => match g.stash.token (32 * k) with
      | some t => sectorPoison (a + 0x1400 + 32 * k) t
      | none => sectorBytes (a + 0x1400 + 32 * k) (g.stash.bytes (32 * k) 32))
    ++ sectorRun (tail.length / 32 + 2) (a + 0x1400 + n) tail

end Sys2Proof.Machine
end

