-- ==== Sys2Proof/Machine/Save.lean ====
section
/-!
DEFINITION. Preemption (R329, R337 to R340): its decision, the drain bound, the save of warps and units, the flush and the resumption;
and HOST_RESPONSE_ARRIVAL (R269), which the launch engine's reads of SPACE 2 wait for too.
-/
namespace Sys2Proof.Machine
open Sys2Proof

/-- The launch and the unit with a number. -/
def State.unitAt (s : State) (id : Nat) : Option (Launch × ClusterUnit) :=
  s.launches.findSome? fun l => (l.units.find? fun u => u.id == id).map fun u => (l, u)
/-- The workgroups of a unit that have not ended. -/
def State.liveUnit (s : State) (l : Launch) (u : ClusterUnit) : List Wg := (s.unitWgs l u).filter fun g => !g.ended
/-- The warps of a unit's workgroups. -/
def State.unitWarps (s : State) (l : Launch) (u : ClusterUnit) : List Warp := (s.liveUnit l u).flatMap fun g => s.warpsOf g.id
/-- Change every warp of a workgroup. -/
def State.modWarpsOf (s : State) (wg : Nat) (f : Warp → Warp) : State :=
  let g (w : Warp) : Warp := if w.ref.wg = wg then f w else w
  { s with warp := g s.warp, parked := s.parked.map g }

/-! ## The decision (R329, R337, R338) -/

/-- The largest of a list of numbers, unknown where any is unknown. -/
def largest (l : List (Option Nat)) : Option Nat :=
  l.foldl (fun m x => match m, x with
    | some a, some b => some (max a b)
    | _, _ => none) (some 0)
/-- The drain estimate of a unit. -/
def State.drainEstimate (s : State) (gs : List Wg) : Option Nat :=
  largest (gs.map fun g =>
    let p := g.progress.toNat
    if p = 0 then none else some ((s.elapsedOf g * (65536 - p) + p - 1) / p))
/-- The save time of a unit. -/
def State.saveTime (s : State) (l : Launch) (gs : List Wg) : Option Nat :=
  let yi := l.krec.yieldi
  if yi = 0 then none
  else
    let yields := gs.flatMap fun g => (s.warpsOf g.id).map fun w => some ((yi - w.yieldCount) * 64)
    let bytes := gs.foldl (fun n g => n + s.saveSize g) 0
    (largest yields).map fun y => y + (bytes + 31) / 32
/-- The row of R338 that applies: the outcome, the estimate and whether the save is chosen past its bound. An outcome whose time is
unknown has estimate 0 (log 28). -/
def State.decideUnit (s : State) (l : Launch) (gs : List Wg) : UnitState × Nat × Bool :=
  let b := l.pkt.pbound * 1900
  let free := l.pkt.pbound == 0
  let drain := s.drainEstimate gs
  let save := s.saveTime l gs
  let within (t : Option Nat) : Bool := t.any fun t => decide (t ≤ b)
  if drain.isSome && (free || within drain) then (.draining, drain.getD 0, false)
  else if free || within save then (.saving, save.getD 0, false)
  else if l.krec.restart then (.flushing, save.getD 0, false)
  else (.saving, save.getD 0, true)
/-- A flush stops issue at once. -/
def Warp.halt (w : Warp) : Warp := if w.status = .running ∨ w.status = .idle then { w with status := .taken } else w
/-- Whether a unit may be preempted: it runs, and no COMMIT.P of it is in progress (R388). -/
def State.mayPreempt (s : State) (l : Launch) (u : ClusterUnit) : Bool :=
  u.state == .running && (s.unitWarps l u).all fun w => w.commitWait.isNone
/-- Whether a drain has run past its bound (R338). -/
def State.drainOver (s : State) (l : Launch) (u : ClusterUnit) : Bool :=
  u.state == .draining && l.pkt.pbound != 0 && decide (u.decided + l.pkt.pbound * 1900 ≤ s.ctr 4)
/-- DRAIN_BOUND_EXPIRY (R338): the unit is then saved. -/
def execDrainBoundExpiry (cluster : Nat) (s : State) : Out :=
  .next (match s.unitAt cluster with
    | none => s
    | some (l, u) => if s.drainOver l u then s.modUnit cluster fun u => { u with state := .saving, overrun := true } else s)

/-- The class of a launch. -/
def State.classOf (s : State) (l : Launch) : Nat := (s.queue l.queue).cls
/-- The state without the workgroups of units whose preemption has been decided. -/
def State.withoutLeaving (s : State) : State :=
  let leaving (g : Wg) : Bool := (s.unitOf g).any fun u => u.state == .draining || u.state == .saving || u.state == .flushing
  { s with wgs := s.wgs.filter fun g => !leaving g }
/-- Whether class `c` has work that is ready and finds no place, even where units whose preemption has been decided have left. -/
def State.starved (s : State) (c : Nat) : Bool :=
  let t := s.withoutLeaving
  ((List.range 256).any fun q => (s.queue q).cls == c && s.eligible q && !t.admissible q)
    || s.launches.any fun l => s.classOf l == c && !l.pkt.coop && decide (l.placed < clusterTotal l.pkt) && (t.placesNow l).isEmpty
/-- The running unit that R329 preempts for class `c`: of the highest class number, and of those the one that started last. -/
def State.victim (s : State) (c : Nat) : Option Nat :=
  let all := s.launches.flatMap fun l =>
    (l.units.filter fun u => decide (c < s.classOf l) && s.mayPreempt l u).map fun u => (s.classOf l, u.start, u.id)
  (all.foldl (fun (m : Option (Nat × Nat × Nat)) x => match m with
    | none => some x
    | some y => if y.1 < x.1 ∨ (y.1 = x.1 ∧ y.2.1 ≤ x.2.1) then some x else some y) none).map fun x => x.2.2

/-- The unit that R329 preempts for some class whose work finds no place. -/
def State.victimNow (s : State) (cluster : Nat) : Bool :=
  (List.range 4).any fun c => s.starved c && s.victim c == some cluster
/-- PREEMPT_DECISION (R329, R338): of Harog's own choice, or asked for by the host or the firmware for a function, which may name only units
of its own. -/
def execPreemptDecision (ask : PreemptAsk) (s : State) : Out :=
  .next (match s.unitAt ask.cluster with
    | none => s
    | some (l, u) =>
      let asked : Bool := match ask.asker with
        | some f => (s.ctx l.tag).func == f
        | none => s.victimNow ask.cluster
      if !(asked && s.mayPreempt l u) then s
      else
        let gs := s.liveUnit l u
        let d := s.decideUnit l gs
        let s := s.modUnit ask.cluster fun u =>
          { u with state := d.1, decided := s.ctr 4, estimate := d.2.1, overrun := false, late := d.2.2 }
        if d.1 = .flushing then gs.foldl (fun s g => s.modWarpsOf g.id Warp.halt) s else s)

/-! ## Taking a warp (R55, R57) -/

/-- Nothing that the warp has issued is outstanding but the result of its own wait (R57). -/
def Warp.settled (w : Warp) : Bool :=
  let own : Bool := match w.wait with
    | .twait _ _ _ => true
    | .waitv => true
    | _ => false
  w.held.isNone && w.late.isEmpty && (w.pend.isEmpty || (own && w.pend.length == 1))
/-- Nothing stands in the drawer and the latches (R73). -/
def Warp.bare (w : Warp) : Bool := w.latch.all (fun x => x.valid == 0#32) && w.drawer.all fun x => x.valid == 0#32
/-- Whether a warp stands where it may be taken: a deschedule point whose own result a save would not lose (log 54), a wait other than
COMMIT.P, or an empty or joining slot. -/
def Warp.atRest (w : Warp) : Bool :=
  w.settled && (match w.status with
    | .running => match w.wait with
      | .none => w.atPoint && w.bare
      | .commitP _ _ => false
      | _ => true
    | .idle => true
    | .joining => true
    | _ => false)
/-- The unit of a warp. -/
def State.unitOfWarp (s : State) (w : WarpRef) : Option ClusterUnit := (s.wgOf w.wg).bind s.unitOf
/-- Whether a warp may be taken for a save; in a paired launch not while its partner waits at a COMMIT.P (R388). -/
def State.mayTakeWarp (s : State) (w : Warp) : Bool :=
  (s.unitOfWarp w.ref).any (fun u => u.state == .saving) && w.atRest
    && !((s.launchOf ((s.wgOf w.ref.wg).getD default).launch).paired
      && (s.getWarp (s.partnerOf w.ref)).any fun p => p.commitWait.isSome)
/-- WARP_SAVE (R57): the warp is taken. -/
def execWarpSave (w : WarpRef) (s : State) : Out :=
  .next (match s.getWarp w with
    | none => s
    | some x => if s.mayTakeWarp x then s.modWarp w fun x => { x with status := .taken } else s)

/-! ## Saving a unit (R184, R210, R255, R274, R333, R339) -/

/-- A request of a warp's WAITV test or of a copy of a workgroup. -/
def State.dropRequests (s : State) (wg : Nat) : State :=
  let cs := (s.copies.filter fun c => c.wg == wg).map Copy.id
  let mine (r : Request) : Bool := match r.copy with
    | some c => cs.contains c
    | none => r.warp.wg == wg && r.res.isNone && r.queue.isNone && r.atom.isNone
  s.modFab fun f => { f with requests := f.requests.filter fun r => !mine r }
/-- Every store of a workgroup has left its core. -/
def State.storesLeft (s : State) (g : Wg) : Bool := !((s.coreAt g.core).storeQ.any fun e => e.warp.wg == g.id)
/-- A load or an atomic of a workgroup's warps still waits for its answer: a save is a FENCE.SEQ of each warp (R274). The tests of a WAITV
are made again when it resumes. -/
def State.answersDue (s : State) (g : Wg) : Bool :=
  s.fabric.requests.any fun r => r.warp.wg == g.id && r.copy.isNone && r.queue.isNone && (r.res.isSome || r.atom.isSome)
/-- No engine work of a workgroup stands that a save lets finish: MGETs, mappings, tag completions (R184, R57). -/
def State.savable (s : State) (g : Wg) : Bool :=
  !s.answersDue g && !((s.recordsOf g).any fun e => e.kind == .mget) && !(s.smaps.any fun j => j.wg == g.id) && !(s.tagDones.any fun t => t.wg == g.id)
    && s.storesLeft g
/-- Every warp of a workgroup has been taken or has ended. -/
def State.allTaken (s : State) (g : Wg) : Bool := (s.warpsOf g.id).all fun w => w.status == .taken || w.status == .ended
/-- Whether a unit can be saved now. -/
def State.maySave (s : State) (l : Launch) (u : ClusterUnit) : Bool :=
  let gs := s.liveUnit l u
  u.state == .saving && !gs.isEmpty && gs.all fun g => s.allTaken g && s.savable g

/-- The areas of the save pool that a context's saved units hold. -/
def State.poolUsed (s : State) (tag : Nat) : List (Nat × Nat) :=
  (s.launches.filter fun l => l.tag == tag).flatMap fun l => (l.units.filter fun u => u.state == .saved).map ClusterUnit.area
/-- The lowest place of the save pool at which `n` bytes fit (log 29). -/
def State.poolPlace (s : State) (tag n : Nat) : Option Nat :=
  let used := s.poolUsed tag
  let cap := (s.ctx tag).spSize.toNat * 65536
  let ok (a : Nat) : Bool := decide (a + n ≤ cap) && used.all fun u => !overlaps a n u.1 u.2
  let cands := (0 :: used.map fun u => (u.1 + u.2 + 255) / 256 * 256).filter ok
  cands.foldl (fun m a => match m with
    | none => some a
    | some b => some (min a b)) none
/-- Whether every page of `n` bytes of the pool from `a` translates for a write; a page that misses queues its request. -/
def State.poolPages (s : State) (tag : Nat) (o : Origin) (base : DWord) (a n : Nat) : State × Bool :=
  let first := a / 65536
  (List.range ((a + n - 1) / 65536 + 1 - first)).foldl (fun r k =>
    let off := base + BitVec.ofNat 64 ((first + k) * 65536)
    let l := r.1.lookup none 4 tag 0 off true
    match l.2 with
    | .leaf _ => (l.1, r.2)
    | .fault .pageMiss => ((l.1.svcReq tag 0 off o).1, false)
    | .fault _ => (l.1, false)) (s, true)
/-- Write a save area through the context's SPACE 0. -/
def State.poolWrite (s : State) (die tag : Nat) (base : DWord) (ws : List SectorWrite) : State :=
  ws.foldl (fun s w =>
    let off := base + BitVec.ofNat 64 w.addr
    let l := s.lookup none 4 tag 0 off true
    match l.2 with
    | .leaf t => l.1.physWrite die tag { w with addr := t.frame + off.toNat % 65536 }
    | .fault _ => l.1) s
/-- The sizes of the save areas of workgroups, each on a 256-byte boundary. -/
def State.areaSizes (s : State) (gs : List Wg) : List Nat := gs.map fun g => (s.saveSize g + 255) / 256 * 256

/-- A copy stops at a sector boundary (R255). The source sectors that it has read stay read, each at one point (R248); what it has asked for is
asked again. -/
def Copy.pause (c : Copy) : Copy := { c with asked := [] }
/-- The registrations of a workgroup are written back, and their lines become ABSENT; their ranges stay reserved (R210). -/
def State.withdrawAll (s : State) (wg : Nat) : State :=
  match s.wgOf wg with
  | none => s
  | some g => ((List.range g.smap.length).foldl (fun s e => s.writeBack wg e) s).modWg wg fun g =>
      { g with smap := g.smap.map fun m => { m with lines := [] } }
/-- The queued tasks of a launch go to the ring from a core that holds no workgroup of it any more (R333). -/
def State.leaveCore (s : State) (core launch : Nat) : State :=
  if (s.liveOn launch core).isEmpty then s.handTasks core launch else s
/-- A workgroup leaves its core: its records and entries go with it. -/
def State.park (s : State) (g : Wg) : State :=
  let q := s.recordsOf g
  let es := s.entriesOf g
  let t := s.elapsedOf g
  let s := (s.withdrawAll g.id).dropRequests g.id
  let s := { s with copies := s.copies.map fun (c : Copy) => if c.wg = g.id then c.pause else c }
  let s := s.modCore g.core fun c =>
    { c with queue := c.queue.filter fun e => e.wg != g.id, rack := c.rack.filter fun e => e.warp.wg != g.id }
  (s.modWg g.id fun g => { g with saved := true, elapsed := t, began := none, heldQueue := q, heldRack := es }).leaveCore g.core g.launch

/-- A taken slot whose task has ended and whose AUTOJOIN is still to be made stands to make it (R40). -/
def Warp.rejoin (w : Warp) : Warp := if w.exited = fullMask ∧ w.endStatus = .joining then w.untake else w
/-- A save that finds no room (R338, R356): a restartable unit is flushed, any other runs on. -/
def State.noRoom (s : State) (l : Launch) (u : ClusterUnit) : State :=
  if l.krec.restart then
    ((s.liveUnit l u).foldl (fun s g => s.modWarpsOf g.id Warp.rejoin) s).modUnit u.id fun u => { u with state := .flushing }
  else
    let s := (s.liveUnit l u).foldl (fun s g => s.modWarpsOf g.id Warp.untake) s
    (s.modUnit u.id fun u => { u with state := .running }).report l u 6
/-- Save a unit at byte `a` of its context's pool. -/
def State.saveUnit (s : State) (l : Launch) (u : ClusterUnit) (a : Nat) : State :=
  let gs := s.liveUnit l u
  let base := (s.ctx l.tag).spBase
  let sizes := s.areaSizes gs
  let s1 := (List.range gs.length).foldl (fun s k =>
    let g := gs.getD k default
    s.poolWrite (dieOf g.core) l.tag base (s.saveWrites g (a + (sizes.take k).sum))) s
  let s2 := (gs.foldl State.park s1).modMem DevMem.sync
  let s3 := s2.modUnit u.id fun u => { u with state := .saved, area := (a, sizes.sum) }
  s3.report l u (if u.overrun then 4 else if u.late then 5 else 2)
/-- UNIT_SAVE (R338, R339, R356). -/
def execUnitSave (cluster : Nat) (s : State) : Out :=
  .next (match s.unitAt cluster with
    | none => s
    | some (l, u) =>
      if !s.maySave l u then s
      else
        let n := (s.areaSizes (s.liveUnit l u)).sum
        match s.poolPlace l.tag n with
        | none => s.noRoom l u
        | some a =>
          let r := s.poolPages l.tag { Origin.device 4 with launchId := l.pkt.launchId } (s.ctx l.tag).spBase a n
          if r.2 then r.1.saveUnit l u a else r.1.noRoom l u)

/-! ## Flushing a unit (R338) -/

/-- Whether what a flushing workgroup has issued is complete; the join of a task that has ended is made first, or has been refused for lack of
room and is repeated after the restart (R40, R336; log 59). -/
def State.flushReady (s : State) (g : Wg) : Bool :=
  !s.engineBusy g && s.storesLeft g && !s.answersDue g
    && (s.warpsOf g.id).all fun w => w.settled && (w.status == .taken || w.status == .ended || w.status == .idle || (w.status == .joining && w.joinAt.isSome))
/-- A workgroup as it will restart: its coordinates and its places, everything else as at its start. -/
def Wg.restart (l : Launch) (g : Wg) : Wg :=
  { Wg.fresh l g.id (linearCluster l.pkt g.cl) (rankOf l.pkt g) g.replica g.partner g.core
      { acc := g.accBase, wslot := g.wBase, tags := g.tagBase, quads := [] } with saved := true }
/-- Flush a workgroup. A slot whose join was refused stays occupied until the join is accepted (R336). -/
def State.flushWg (s : State) (l : Launch) (g : Wg) : State :=
  let s := (s.unmapAll g.id).dropRequests g.id
  let s := s.modCore g.core fun c => { c with rack := c.rack.filter fun e => e.warp.wg != g.id }
  let s := (s.modWg g.id fun g => g.restart l).modWarpsOf g.id fun w =>
    if w.status = .joining then { w with status := .taken } else { Warp.begin l g.id w.ref.warp w.quad w.privBase with status := .taken }
  s.leaveCore g.core g.launch
/-- UNIT_FLUSH (R338). -/
def execUnitFlush (cluster : Nat) (s : State) : Out :=
  .next (match s.unitAt cluster with
    | none => s
    | some (l, u) =>
      let gs := s.liveUnit l u
      if u.state != .flushing || !(gs.all s.flushReady) then s
      else
        let s := gs.foldl (fun s g => s.flushWg l g) s
        let s := s.modLaunch l.id fun l =>
          -- workgroups that have ended still count in the grid barrier (R332)
          { l with restarts := l.restarts + gs.length, gbars := (List.range l.gbars.length).map fun r =>
              { Bar.fresh (l.gbars.getD r default).expect with
                pend := spatialWarps l.pkt * (s.wgs.filter fun g => g.launch == l.id && g.replica == r && g.ended).length } }
        (s.modUnit cluster fun u => { u with state := .flushed }).report l u 3)

/-! ## Resuming a unit (R32, R57, R73, R184, R210, R338) -/

/-- A warp as it goes on after a save: hints, drawer and latches are gone (R73). A pending wait goes on with what its issue fixed, the place of
its result among it; a WAITV starts its time and its tests anew (R57, R296). -/
def Warp.resume (now : Nat) (w : Warp) : Warp :=
  -- a warp that was flushed has issued nothing, and so stands at no deschedule point
  if w.wait = .none then { w.deschedule.untake with hints := Hints.fresh, atPoint := w.atPoint }
  else
    let w := { w.untake with hints := Hints.fresh }
    if w.wait = .waitv then { w with waitv := { w.waitv with start := now, tests := [], late := false, first := true, seen := [] } }
    else w
/-- The demand of a workgroup of a unit that is to resume, with the tag run that a saved one held. -/
def Wg.need (l : Launch) (saved : Bool) (g : Wg) : Need × Option Nat := (needOf l.krec l.pkt, if saved then some g.tagBase else none)
/-- A core has room for what a workgroup's save holds of its queue and Rack. -/
def State.recordsFit (s : State) (core : Nat) (g : Wg) : Bool :=
  let c := s.coreAt core
  decide (c.queue.length + g.heldQueue.length ≤ 32) && decide (c.rack.length + g.heldRack.length ≤ 512)
/-- Register the entries of a workgroup again (R210): every page is translated anew and every line is ABSENT. An entry of which a page meets a
fault, or is mapped by another workgroup, is refused, which leaves no entry (R206; log 62). -/
def State.reregister (s : State) (wg : Nat) : State :=
  (List.range (((s.wgOf wg).map fun g => g.smap.length).getD 0)).foldl (fun s e =>
    let g := (s.wgOf wg).getD default
    let m := g.smap.getD e default
    if !m.valid then s
    else
      let r := State.rangePages g.core (dieOf g.core) g.tag (m.len / 4096) m.gbase s []
      let bad (p : Nat × Option Nat × Option Cause) : Bool := match p.2.1 with
        | some f => r.1.pageMapped f (some wg)
        | none => true
      -- a page that misses queues its request (R195)
      let s := (r.2.filter fun p => p.2.2 == some .pageMiss).foldl (fun s p =>
        (s.svcReq g.tag 0 (BitVec.ofNat 64 p.1) (s.engineOrigin wg 0#64)).1) r.1
      let stands := !r.2.any bad
      let pages := if stands then r.2.map fun p => p.2.1.getD 0 else []
      (s.dropL2 fun l => pages.contains (l / 32)).modWg wg fun g =>
        { g with smap := updAt g.smap e fun m => { m with valid := stands, lines := [], owners := [], pages := pages } }) s
/-- A workgroup that resumes fills its prefilled entries again, and issues only once it has (R207, R210): what is not filled at the first try is
tried again. -/
def State.prefill (s : State) (g : Wg) : State :=
  let es := (List.range g.smap.length).filter fun e => let m := g.smap.getD e default; m.valid && m.pre
  (es.foldl (fun s e => (List.range ((g.smap.getD e default).len / 128)).foldl (fun s line =>
    (s.readyLine g.tag (s.engineOrigin g.id 0#64) g.id e line).1) s) s).modWg g.id fun g =>
      { g with refill := es.filter fun e => !((g.smap.getD e default).absent.isEmpty) }
/-- Bring a workgroup back on a core. -/
def State.bringBack (s : State) (g : Wg) (core : Nat) (p : Grant) : State :=
  let now := s.ctr (dieOf core)
  let s := s.modCore core fun c => { c with queue := c.queue ++ g.heldQueue, rack := c.rack ++ g.heldRack }
  let s := s.modWg g.id fun g =>
    { g with core := core, accBase := p.acc, wBase := p.wslot, tagBase := p.tags, saved := false, heldQueue := [], heldRack := []
             began := if g.elapsed = 0 then none else some now }
  let s := (s.modWarpsOf g.id fun w => { w.resume now with quad := p.quads.getD w.ref.warp 0 }).reregister g.id
  s.prefill ((s.wgOf g.id).getD default)
/-- The places of flushed workgroups: each on its own core, each warp on its own quadrant, since only a save lets either change (R32, R33). -/
def State.placeAgain (s : State) (l : Launch) : List Wg → List (Nat × Room) → Option (List (Nat × Grant))
  | [], _ => some []
  | g :: gs, rooms =>
    let own := (List.range (needOf l.krec l.pkt).warps).map fun k => ((s.getWarp { wg := g.id, warp := k }).map Warp.quad).getD 0
    match rooms.find? fun x => x.1 == g.core with
    | none => none
    | some (c, room) => match room.take (needOf l.krec l.pkt) none (some own) with
      | none => none
      | some (room, p) => (s.placeAgain l gs (rooms.map fun x => if x.1 = c then (c, room) else x)).map fun r => (c, p) :: r
/-- Bring the workgroups of one cluster coordinate and replica back on a hardware cluster. -/
def State.bringCluster (s : State) (l : Launch) (saved : Bool) (gs : List Wg) (hc : Nat) : Option State :=
  if !s.mayPlace l.tag hc then none
  else match if saved then placeAll (gs.map (Wg.need l saved)) 0 (s.roomsOf hc) else s.placeAgain l gs (s.roomsOf hc) with
    | none => none
    | some ps =>
      (List.range gs.length).foldl (fun r k => r.bind fun s =>
        let g := gs.getD k default
        let p := ps.getD k default
        if s.recordsFit p.1 g then some (s.bringBack g p.1 p.2) else none) (some s)
/-- The hardware clusters that hold a replica of a cluster coordinate already. -/
def State.otherReplica (s : State) (l : Launch) (gs : List Wg) : List Nat :=
  if !l.paired then []
  else gs.filterMap fun g => match s.wgOf g.partner with
    | some p => if p.saved || p.ended then none else some (p.core / 4)
    | none => none
/-- The groups of a unit's workgroups that share a hardware cluster, in order (R31, R388). -/
def groupsOf (l : Launch) : List Wg → List (List Wg)
  | [] => []
  | g :: gs =>
    let rest := groupsOf l gs
    let same (h : Wg) : Bool := linearCluster l.pkt h.cl == linearCluster l.pkt g.cl && h.replica == g.replica
    if rest.any fun r => r.any same then rest.map fun r => if r.any same then g :: r else r else [g] :: rest
/-- Bring a whole unit back, its first group on `hc`. -/
def State.bringUnit (s : State) (l : Launch) (u : ClusterUnit) (hc : Nat) : Option State :=
  let groups := groupsOf l (s.liveUnit l u)
  (List.range groups.length).foldl (fun r k => r.bind fun s =>
    let gs := groups.getD k []
    let cands := if k = 0 then [hc] else if u.state == .flushed then (gs.map fun g => g.core / 4).take 1 else (List.range 64).filter fun h => !(s.otherReplica l gs).contains h
    cands.findSome? fun h => s.bringCluster l (u.state == .saved) gs h) (some s)
/-- Whether a unit waits to resume. -/
def ClusterUnit.away (u : ClusterUnit) : Bool := u.state == .saved || u.state == .flushed
/-- UNIT_RESUME (R73, R338). -/
def execUnitResume (cluster die hc : Nat) (s : State) : Out :=
  .next (match s.unitAt cluster with
    | none => s
    | some (l, u) =>
      if !u.away then s
      -- what the unit's warps wrote before is applied on every die first (R210, R274)
      else match (s.modMem DevMem.sync).bringUnit l u (die * 16 + hc) with
        | none => s
        | some t => t.modUnit cluster fun u => { u with state := .running, area := (0, 0) })

/-! ## Scheduling descriptors (R352) -/

/-- What the command-processor firmware receives of a packet or a running unit, and nothing else from context memory (R352). `units` holds
the elapsed cycles and the PROGRESS of each workgroup of the unit; it is empty for a packet. -/
structure SchedDesc where
  queue : Nat
  cls : Nat
  tag : Nat
  coop : Bool
  gdim : Nat × Nat × Nat
  wdim : Nat × Nat × Nat
  cdim : Nat × Nat × Nat
  stages : Nat
  demand : Need
  pbound : Nat
  diepref : Nat
  hints : List Byte
  met : List Bool
  units : List (Nat × Word)
  deriving DecidableEq, Repr, Inhabited
/-- The descriptor of a packet of a queue with its kernel record. -/
def State.describe (s : State) (qi : Nat) (p : Packet) (k : Krec) (hints : List Byte) (met : List Bool) (units : List (Nat × Word)) : SchedDesc :=
  { queue := qi, cls := (s.queue qi).cls, tag := (s.queue qi).ctx, coop := p.coop, gdim := p.gdim, wdim := p.wdim, cdim := p.cdim
    stages := p.stages, demand := needOf k p, pbound := p.pbound, diepref := bitsAt p.flags 7 4, hints := hints, met := met, units := units }
/-- The descriptor of the packet at the head of a queue, once its record has been read. -/
def State.describeHead (s : State) (qi : Nat) : Option SchedDesc :=
  (s.queue qi).head.bind fun h => h.krec.map fun k => s.describe qi { h.pkt with gdim := h.gdim } k h.hintList h.met []
/-- The descriptor of a running unit. -/
def State.describeUnit (s : State) (l : Launch) (u : ClusterUnit) : SchedDesc :=
  { s.describe l.queue l.pkt l.krec l.hintList (l.pkt.waits.map fun _ => true) ((s.liveUnit l u).map fun g => (s.elapsedOf g, g.progress)) with
    tag := l.tag }
/-- Every descriptor that the firmware now receives. -/
def State.descriptors (s : State) : List SchedDesc :=
  (List.range s.queues.length).filterMap s.describeHead
    ++ s.launches.flatMap fun l => (l.units.filter fun u => u.state == .running).map (s.describeUnit l)

/-! ## Answers of the host (R269) -/

/-- The answer to a queue's read of its ring (log 25). -/
def State.answerQueue (s : State) (qi : Nat) (r : Request) (a : Answer) : State :=
  let s := s.modFab fun f => { f with requests := f.requests.filter fun x => x.id != r.id }
  if (s.queue qi).asked != some r.id then s
  else
    let s := s.modQueue qi fun q => { q with asked := none }
    match a with
    | .words vs => s.gotPacket qi (valBytes vs)
    | .fault c _ => s.rejectHead qi 0 (causeGrade c.code) c.code r.raw 0#32
/-- HOST_RESPONSE_ARRIVAL (R269). A completion that fails gives PROTECTION; poisoned data gives LINE_POISON (log 23). -/
def execHostResponseArrival (req : Nat) (rep : HostReply) (s : State) : Out :=
  .next (match s.requestOf req with
    | none => s
    | some r =>
      if r.isRemote then s
      else
        let a : Answer := match rep with
          | .failed => .fault .protection 2
          | .data vs => if vs.any Val.psn then .fault .linePoison 2 else .words vs
        match r.queue with
        | some qi => s.answerQueue qi r a
        | none => s.answer r a)

end Sys2Proof.Machine
end

