-- ==== Sys2Proof/Machine/Kill.lean ====
section
/-!
DEFINITION. Killing a context (R367, R368, R397), frames and invalidation (R197, R351, R358), the function-level reset (R369 to R371),
errors that no access finds (R395, R396, R414), failures (R401) and the home of a page (R270).
-/
namespace Sys2Proof.Machine
open Sys2Proof

/-! ## Invalidation (R197) -/

/-- The frame that a store entry writes. -/
def StoreEntry.frame (e : StoreEntry) : Option Nat := match e.act with
  | .mem w => some (w.addr / 65536)
  | _ => none
/-- Every store entry for which `f` holds leaves its core, oldest first. -/
def State.drainAll (s : State) (f : StoreEntry → Bool) : State :=
  (List.range s.cores.length).foldl (fun s c => if (s.coreAt c).storeQ.any f then s.drainWhere c f else s) s
/-- Drop the TLB entries for which `f` holds (R196, R197). -/
def State.dropTlb (s : State) (f : TlbEntry → Bool) : State :=
  { s with
    cores := s.cores.map fun c => { c with tlb := c.tlb.filter fun t => !f t }
    l2tlb := s.l2tlb.map fun l => l.filter fun t => !f t }
/-- Settle the stash mappings for which `f` holds of their workgroup and entry (R197, R209). Those of a saved workgroup are written back
already, and are translated anew when it resumes (R210). -/
def State.settleMaps (s : State) (f : Wg → SmapEntry → Bool) : State :=
  s.wgs.foldl (fun s g => (List.range g.smap.length).foldl (fun s e => match g.smap[e]? with
    | some m => if m.valid && !g.saved && !g.ended && f g m then s.unmap g.id e else s
    | none => s) s) s
/-- Copies of a context have read, or have asked for, source sectors that they have not finished with (R256). -/
def State.copying (s : State) (tag : Nat) : Bool :=
  s.copies.any fun c => (match s.wgOf c.wg with
    | some g => g.tag == tag && !g.saved
    | none => false) && !(c.fetched.isEmpty && c.asked.isEmpty)
/-- A store queue holds a SPACE 2 write of a context to a port in CXL mode, which the host will observe (R268). -/
def State.queuedHost (s : State) (tag : Nat) : Bool :=
  s.cores.any fun c => c.storeQ.any fun e => e.tag == tag && (match e.act with
    | .host p _ _ _ => (s.svc.ports.getD p default).cxl
    | _ => false)
/-- Accesses of a context that used its translations of a space are still to be performed: loads and atomics that the host has not answered,
writes that it has not observed (R197, R268), and copies (R256). -/
def State.settling (s : State) (tag space : Nat) : Bool :=
  s.copying tag || (space == 2 && (s.queuedHost tag || (s.fabric.requests.any fun r => r.tag == tag && decide (10000 ≤ r.node))
    || s.svc.observing.any fun o => ((s.wgOf o.2.wg).map fun g => g.tag) == some tag))
/-- The saved copies of contexts for which `f` holds forget what they have read: they translate it anew (R256). -/
def State.forgetSaved (s : State) (f : Nat → Bool) : State :=
  { s with copies := s.copies.map fun c => match s.wgOf c.wg with
    | some g => if g.saved && f g.tag then { c with fetched := [] } else c
    | none => c }
/-- An invalidation of frames completes (R197, R351). -/
def State.invalidateFrames (s : State) (f : Nat → Bool) : State :=
  let s := (s.drainAll fun e => e.frame.any f).settleMaps fun _ m => m.pages.any fun p => f (p / 16)
  ((s.forgetSaved fun _ => true).dropTlb fun t => decide (t.space ≤ 1) && f (t.frame / 65536)).modMem DevMem.sync
/-- An invalidation of pages of a space of a context completes (R197). -/
def State.invalidatePages (s : State) (tag space first count : Nat) : State :=
  let hit (p : Nat) : Bool := decide (first ≤ p) && decide (p < first + count)
  let s := s.drainAll fun e => e.tag == tag
  let s := if space = 0 then
      s.settleMaps fun g m => g.tag == tag && (List.range ((m.len + 65535) / 65536 + 1)).any fun k => hit (m.gbase / 65536 + k)
        && decide ((m.gbase / 65536 + k) * 65536 < m.gbase + m.len)
    else s
  ((s.forgetSaved fun t => t == tag).dropTlb fun t => t.tag == tag && t.space == space && hit t.page).modMem DevMem.sync

/-- Retire a frame (R358, R397): OWNER becomes 30 and its SHARE bits are cleared. -/
def State.retireFrame (s : State) (f : Nat) : State :=
  let s := ((s.invalidateFrames fun x => x == f).dropL2 fun l => l / 512 == f).modSvc fun v => v.setFrame f 30 0#18
  (s.modDie (homeDie (f * 65536)) fun d => { d with retired := d.retired + 1 }).modSvc Service.wear
/-- Frames as they are granted to a new owner: clean sectors of zeros (R351). -/
def State.zeroFrames (s : State) (f : Nat → Bool) : State :=
  let s := (s.modMem DevMem.sync).dropL2 fun l => f (l / 512)
  let s := s.modMem fun d =>
    { d with base := { cells := d.base.cells.filter fun c => !f (c.1 / 65536)
                       poison := d.base.poison.filter fun p => !f (p.1 / 2048) }
             owners := d.owners.filter fun o => !f (o.1 / 512) }
  s.modSvc fun v => { v with errors := v.errors.filter fun e => !f (e.sector / 2048)
                             directory := v.directory.filter fun l => !f (l / 512) }

/-! ## Killing a context (R367, R368) -/

/-- The workgroups of a context. -/
def State.wgsOf (s : State) (tag : Nat) : List Wg := s.wgs.filter fun g => g.tag == tag
/-- Disable a queue (R321): its drain mark and what has been read of its head go; a dependence that is met stays met (R325). -/
def Queue.disable (q : Queue) : Queue :=
  { q with metBy := (q.head.map fun h => (q.ctx, h.met)) <|> q.metBy, en := false, drain := false, mark := none, head := none, raw := none, hold := none, retried := none, asked := none, claim := none }
/-- Flags that the context's STCs have formed leave. -/
def State.sendFlags (s : State) (wgs : List Wg) : State :=
  let mine (j : FlagSend) : Bool := wgs.any fun g => g.id == j.warp.wg
  (s.fabric.sends.filter mine).foldl (fun s j => s.send (.flag j.node j.pkt))
    (s.modFab fun f => { f with sends := f.sends.filter fun j => !mine j })
/-- Flags that the Easel holds for the context are not written (R368; log 34). -/
def State.refuseFlags (s : State) (tag : Nat) : State :=
  s.refuseHeld fun h => (s.recvOf h.pkt.src h.pkt.chan).any fun c => c.tag == tag
/-- Clear what a context held in cores and engines (R367, steps 2 and 5). What it has asked another node or the host for stays outstanding. -/
def State.clearContext (s : State) (tag : Nat) : State :=
  let gs := s.wgsOf tag
  let ls := (s.launches.filter fun l => l.tag == tag).map Launch.id
  let mine (wg : Nat) : Bool := gs.any fun g => g.id == wg
  let bare (c : Core) : Core :=
    { c with queue := c.queue.filter fun e => !mine e.wg, rack := c.rack.filter fun e => e.tag != tag
             recCache := c.recCache.filter fun e => e.1 != tag, taskQ := c.taskQ.filter fun e => !ls.contains e.1 }
  { s with cores := s.cores.map bare, copies := s.copies.filter fun c => !mine c.wg,
           smaps := s.smaps.filter fun j => !mine j.wg, tagDones := s.tagDones.filter fun t => !mine t.wg }.dropTlb fun t => t.tag == tag
/-- The bad stash lines of a kill are discarded, and so not written back (R397). -/
def State.discardLines (s : State) (lines : List Nat) : State :=
  lines.foldl (fun s line => if (s.locate (line * 128)).isSome then s.dropCopy (line * 128) else s) s
/-- The kill of a live context begins (R367; log 47). `report` is the grade and cause of the fault record of KIND 3 that each of its launches receives,
where the kill is an error's (R397, R401, R403); `lines` are the bad lines of an owner-tag handling. -/
def State.killStart (s : State) (tag cause : Nat) (report : Option (Nat × Nat)) (lines : List Nat) : State :=
  let gs := s.wgsOf tag
  let stop (q : Queue) : Queue := if q.en && q.ctx == tag then q.disable else q
  let s := { s with queues := s.queues.map stop }
  let s := s.drainAll fun e => e.tag == tag
  let seen := (s.svc.observing.filter fun o => gs.any fun g => g.id == o.2.wg).map Prod.fst
  let ls := s.launches.filter fun l => l.tag == tag
  let d : Dying := { cause := cause, report := report, ends := ls.map fun l => (l.queue, l.pkt.launchId, l.restarts, l.missed), seen := seen, lines := lines }
  let s := ((s.sendFlags gs).modCtx tag fun c => { c with dying := some d }).refuseFlags tag
  let s := (s.discardLines lines).settleMaps fun g _ => g.tag == tag
  let s := (s.clearContext tag).modMem fun d => { d.sync with owners := d.owners.filter fun o => o.2 != tag }
  ls.foldl (fun s l => s.dropLaunch l) s
/-- Whether a kill that has begun may end: no request with its tag is outstanding, the host has observed its writes (R367), and no copy of another
context uses a frame that is to be retired (R197, R256, R397). -/
def State.killReady (s : State) (tag : Nat) : Bool := match (s.ctx tag).dying with
  | none => false
  | some d => !(s.fabric.requests.any fun r => r.tag == tag) && !(s.svc.observing.any fun o => d.seen.contains o.1)
      && !(d.lines.any fun l => (List.range 64).any fun t => s.copying t && s.svc.mayUse (s.ctx t).func (l / 512))
/-- The slot of L2 that holds a line is quarantined (R397). -/
def State.quarantineLine (s : State) (line : Nat) : State :=
  let s := match s.l2Line (line * 128) with
    | some l => (s.modSvc fun v => { v with quarantine := (l.die, l.set, l.way) :: v.quarantine }).dropL2 fun x => x == line
    | none => s
  (s.modSvc fun v => { v with errors := v.errors.filter fun e => e.sector / 4 != line }).modDie (homeDie (line * 128)) fun d =>
    { d with quarantined := d.quarantined + 1 }
/-- The kill of a context ends (R367, step 6): its records are written and it is killed. The frames of bad lines are retired and the lines' slots
quarantined (R397). -/
def State.killEnd (s : State) (tag : Nat) : State := match (s.ctx tag).dying with
  | none => s
  | some d =>
    let s := s.modCtx tag fun c => { c with state := 2, cause := d.cause, dying := none }
    let s := d.ends.foldl (fun s e =>
      let s := match d.report with
        | some (g, c) => s.pushRecord tag (faultRecord g c 3 e.2.1 0#64 0#64 0#32 0#16)
        | none => s
      s.completion tag 3 e.1 e.2.1 e.2.2.1 e.2.2.2) s
    let s := d.lines.foldl State.quarantineLine s
    (d.lines.map fun l => l / 512).eraseDups.foldl State.retireFrame s
/-- A kill that can end does. -/
def State.killDone (s : State) (tag : Nat) : State := if s.killReady tag then s.killEnd tag else s
/-- Kill a live context (R367): it ends at once where nothing of it is outstanding, else once nothing is. -/
def State.killContext (s : State) (tag cause : Nat) (report : Option (Nat × Nat)) (lines : List Nat := []) : State :=
  if (s.ctx tag).live then (s.killStart tag cause report lines).killDone tag else s
/-- Release the channels of a context and free its tag (R367). -/
def State.freeContext (s : State) (tag : Nat) : State :=
  let forget (q : Queue) : Queue := if (q.metBy.map Prod.fst) = some tag then { q with metBy := none } else q
  let s := { s with queues := s.queues.map forget }
  (s.releaseChannels (fun c => c.tag == tag) fun c => c.tag == tag).modCtx tag fun _ => Ctx.fresh
/-- Kill and destroy a context: a killed one is freed (R367). -/
def State.destroyContext (s : State) (tag : Nat) : State :=
  let s := (s.killContext tag 0x13 none).killDone tag
  if (s.ctx tag).dying.isSome then s else s.freeContext tag

/-- The dirty lines of a context in which an uncorrectable error has been found (R350, R397). -/
def State.badLines (s : State) (tag : Nat) : List Nat :=
  ((s.svc.errors.filter fun e => e.kind == .dirtyLine && s.lineTag (e.sector * 32) == some tag).map fun e => e.sector / 4).eraseDups
/-- CONTEXT_KILL (R367, R397): the start of a kill, for ECC_UNCORRECTABLE owner-tag handling with its bad lines; and the end of one that has
begun. -/
def execContextKill (tag cause : Nat) (s : State) : Out :=
  .next (if (s.ctx tag).dying.isSome then s.killDone tag
    else if cause ≠ 5 then s.killContext tag cause none
    else s.killContext tag 5 (some (0, 5)) (s.badLines tag))

/-! ## Function-level reset (R369 to R371) -/

/-- Change a function. -/
def State.modFunc (s : State) (f : Nat) (g : Func → Func) : State := s.modSvc fun v => { v with funcs := updAt v.funcs f g }
/-- A function. -/
def State.func (s : State) (f : Nat) : Func := s.svc.funcs.getD f (Func.fresh none)
/-- Whether a function exists (R353). -/
def State.present (s : State) (f : Nat) : Bool :=
  s.svc.runs && decide (f < 18) && (decide (f < 2) || (match (s.func f).port with
    | some p => (s.svc.ports.getD p default).vfEnable
    | none => false))
/-- Whether a function holds a queue (R353). -/
def State.holdsQueue (s : State) (f q : Nat) : Bool :=
  decide (q < 256) && (match (List.range 18).find? fun k => decide (2 ≤ k) && (s.func k).queues.contains q with
    | some k => k == f
    | none => decide (f < 2) && ((s.queue q).claim == none || (s.queue q).claim == some f))
/-- Whether a function holds a context (R349). -/
def State.holdsCtx (s : State) (f tag : Nat) : Bool := decide (1 ≤ tag) && decide (tag < 64) && (s.ctx tag).state != 0 && (s.ctx tag).func == f
/-- The functions that a reset of `f` resets: a physical function's enabled virtual functions with it. -/
def State.resetSet (s : State) (f : Nat) : List Nat :=
  (List.range 18).filter fun k => k == f || (decide (f < 2) && decide (2 ≤ k) && (s.func k).port == some f && s.present k)
/-- The oldest request is answered. -/
def State.answerOldest (s : State) (f status res : Nat) : State :=
  (s.modSvc fun v => { v with mailbox := v.mailbox.drop 1, grace := v.grace.filter (fun g => g != f), early := [] }).modFunc f fun x =>
    { x with busy := false, status := status, result := BitVec.ofNat 32 res }
/-- Requests at the head whose code names no command are answered INVALID (R358); `fuel` is the number of requests. -/
def State.skipUnknown : Nat → State → State
  | 0, s => s
  | fuel + 1, s => match s.svc.mailbox with
    | (f, w) :: _ =>
      let code := (w.getD 0 0#32).toNat % 256
      if 1 ≤ code ∧ code ≤ 12 then s else State.skipUnknown fuel (s.answerOldest f 2 0)
    | [] => s
/-- The Safelight passes on to the next request that names a command. -/
def State.nextRequest (s : State) : State := s.skipUnknown s.svc.mailbox.length
/-- The start of a reset: STATE becomes resetting and the queues are disabled. The request that the Safelight is carrying out completes first
(R371). -/
def State.flrStart (s : State) (f : Nat) : State :=
  let held (q : Nat) : Bool := if f < 2 then (s.queue q).claim == some f else (s.func f).queues.contains q
  let s := { s with queues := (List.range s.queues.length).map fun q => if held q then (s.queue q).disable else s.queue q }
  (s.modFunc f fun x => { x with resetting := true }).modSvc fun v => { v with early := if v.mailbox.isEmpty then v.early else f :: v.early }
/-- A request that names a function is turned away with CONFLICT: its STATE is resetting, and the request was not in progress when the reset
started (R371). -/
def State.resetsNow (s : State) (f : Nat) : Bool := (s.func f).resetting && !s.svc.early.contains f
/-- The end of a reset: contexts, HCTX and the mailbox. It waits for kills that have not ended (R367). -/
def State.flrEnd (s : State) (f : Nat) : State :=
  let s := (List.range 64).foldl (fun s t => if s.holdsCtx f t then s.destroyContext t else s) s
  if (List.range 64).any (s.holdsCtx f) then s
  else
  let s := s.modSvc fun v => { v with mailbox := v.mailbox.filter (fun m => m.1 != f), grace := v.grace.filter (fun g => g != f) }
  (s.modFunc f fun x =>
    { x with resetting := false, hctx := 0, mbreq := List.replicate 16 0#32, busy := false, status := 0, result := 0#32 }).nextRequest
/-- The reset of a function waits for the request that was in progress when it started, and for its own that the Safelight has come to (R371). -/
def State.flrWaits (s : State) (f : Nat) : Bool :=
  s.svc.early.contains f || (s.svc.mailbox.head?.map Prod.fst) == some f
    || (List.range 64).any fun t => s.holdsCtx f t && (s.ctx t).dying.isSome && !s.killReady t
/-- FLR (R369, R371): its start, for a function that is ready; its end, for one that is resetting. -/
def execFlr (f : Nat) (s : State) : Out :=
  .next (if !s.present f then s
    else if (s.func f).resetting then (if s.flrWaits f then s else s.flrEnd f)
    else (s.resetSet f).foldl State.flrStart s)

/-! ## Scrubs (R395, R396, R414) -/

/-- The live contexts whose function may use a frame (R399). -/
def State.frameCtxs (s : State) (frame : Nat) : List Nat :=
  (List.range 64).filter fun t => (s.ctx t).live && s.svc.mayUse (s.ctx t).func frame
/-- A scrub's read of a sector of stacked SRAM or of LPDDR5X: it changes no value, and an error that it finds is handled as R396 and R414 give. An
error in a core's own arrays it does not find (R395); one in LPDDR5X poisons the sector there, whatever a stash holds over it. -/
def State.scrubSector (s : State) (sector : Nat) : State :=
  let pa := sector * 32
  let die := homeDie pa
  match s.errorAt pa with
  | none => s
  | some e =>
    if e.inCore then s
    else match e.kind with
      | .corrected => s.correctError die pa
      | .cleanCopy => (s.foundError die pa).dropCopy pa
      | .dirtyLine => match s.lineTag pa with
        | some t => s.killOwner die t pa
        | none => s
      | .dram =>
        let r := (s.foundError die pa).mkToken 0 .linePoison (Origin.device die)
        let s := (r.1.modMem fun d => d.enter die (sectorPoison pa r.2)).modSvc fun v => v.notePoison (pa / 65536)
        (s.frameCtxs (pa / 65536)).foldl (fun s t =>
          s.pushRecord t (faultRecord 3 6 4 0 0#64 (BitVec.ofNat 64 pa) r.2 0xFFFF#16)) s
/-- The lines of a die's L2 that are encoded with SECDED in a region that has changed to the strong code (R394, R395). -/
def State.stale (s : State) (die : Nat) : List L2Line :=
  s.l2.filter fun l => l.die == die && !l.strong
    && (s.svc.dies.getD die DieHealth.fresh).strong.contains (Config.l2Region l.set l.way % sramRegions)
/-- A scrub reads the sectors of a line and encodes it with its region's code (R395). -/
def State.reencode (s : State) (l : L2Line) : State :=
  let s := (List.range 4).foldl (fun s k => s.scrubSector (4 * l.line + k)) s
  { s with l2 := s.l2.map fun x => if x.line = l.line then { x with strong := true } else x }
/-- SQUEEGEE_SCRUB (R395): every line of a region that has changed code is encoded anew before any other scrubbing on the die. -/
def execSqueegeeScrub (sector : Nat) (s : State) : Out :=
  .next (((s.stale (homeDie (sector * 32))).foldl State.reencode s).scrubSector sector)

/-! ## Failures and heat (R401, R403) -/

/-- The hardware clusters that are enabled. -/
def State.clustersOn (s : State) : List Nat :=
  (List.range 64).filter fun hc => !s.svc.failedClusters.contains hc && !(s.coresOf hc).isEmpty
/-- Health after a resource has failed: DEGRADED, or OUT with no hardware cluster left. -/
def State.degrade (s : State) : State := s.modSvc fun v => (v.worsen 2).worsen (if s.clustersOn.isEmpty then 3 else 0)
/-- Kill the contexts that have a running unit on a core for which `f` holds, with grade RELOCATE. -/
def State.killOn (s : State) (f : Nat → Bool) : State :=
  (List.range 64).foldl (fun s t =>
    if s.wgs.any fun g => g.tag == t && !g.saved && !g.ended && f g.core then s.killContext t 0x13 (some (1, 0x13)) else s) s
/-- Disable cores. -/
def State.disableCores (s : State) (f : Nat → Bool) : State :=
  { s with cores := (List.range s.cores.length).map fun c => if f c then { s.coreAt c with enabled := false } else s.coreAt c }
/-- `x` joins a list that it is not in. -/
def noted [BEq α] (x : α) (l : List α) : List α := if l.contains x then l else x :: l
/-- RESOURCE_FAILURE (R11, R12, R401). A memory channel runs no unit, and the units that run on a link are those on either of its dies (log 35). -/
def execResourceFailure (r : Resource) (s : State) : Out :=
  .next (if !r.real then s
    else match r with
    | .core die core => (((s.killOn fun c => c == die * 64 + core).disableCores fun c => c == die * 64 + core).degrade).rejectUnfit
    | .cluster die k =>
      let hc := die * 16 + k
      (((s.killOn fun c => c / 4 == hc).disableCores fun c => c / 4 == hc).modSvc fun v =>
        { v with failedClusters := noted hc v.failedClusters }).degrade.rejectUnfit
    | .link a b => ((s.killOn fun c => dieOf c == a || dieOf c == b).modSvc fun v => { v with failedLinks := noted (a, b) v.failedLinks }).degrade
    | .channel die k => (s.modSvc fun v => { v with failedChans := noted (die, k) v.failedChans }).degrade)
/-- PLANE_FAILURE (R277, R401): packets on it may be lost. -/
def execPlaneFailure (plane : Nat) (s : State) : Out :=
  .next ((s.losePlane plane).modSvc fun v => { v with planes := v.planes ||| (1#18 <<< plane) }.wear)
/-- THERMAL_THROTTLE (R403). -/
def execThermalThrottle (s : State) : Out := .next (s.modSvc fun v => { v with throttled := true })
/-- THERMAL_TRIP (R403). -/
def execThermalTrip (s : State) : Out :=
  .next (((List.range 64).foldl (fun s t => s.killContext t 0x13 (some (1, 0x13))) s).modSvc fun v => v.worsen 3)

/-! ## The home of a page (R270) -/

/-- The address of the level-4 leaf entry of a walk; none where the walk ends otherwise. -/
def leafEntry (m : Memory) (off : Nat) : Nat → Nat → Option Nat
  | 0, _ => none
  | fuel + 1, table =>
    let lv := 5 - (fuel + 1)
    let a := table + 8 * (if lv = 0 then bitsAt off 56 8 else bitsAt off (56 - 10 * lv) 10)
    if lv = 4 then some a
    else if bitsAt (m.nat a 8) 1 1 = 1 then none
    else leafEntry m off fuel (bitsAt (m.nat a 8) 13 39 * 2 ^ 13)
/-- A context is at a quiesce point. -/
def State.quiesced (s : State) (tag : Nat) : Bool :=
  !(s.launches.any fun l => l.tag == tag) && !((s.wgsOf tag).any fun g => s.copies.any (fun c => c.wg == g.id) || g.smap.any SmapEntry.valid)
/-- A frame's page may move to another frame: both are the function's own and no other context could see either (log 36). -/
def State.mayMove (s : State) (tag old new : Nat) : Bool :=
  let f := (s.ctx tag).func
  decide (1 ≤ tag) && (s.ctx tag).live && s.quiesced tag && decide (new < 2 ^ 24) && old != new
    && s.svc.frame old == (f, 0#18) && s.svc.frame new == (f, 0#18)
    && (List.range 64).all fun t => t == tag || (s.ctx t).state == 0 || (s.ctx t).func != f
/-- PAGE_HOME_MOVE (R270): the page's frame is copied and its translation replaced. -/
def execPageHomeMove (tag : Nat) (off : DWord) (frame : Nat) (s : State) : Out :=
  .next (
    let s0 := s.modMem DevMem.sync
    match s0.walk 4 tag 0 off, ((s0.ctx tag).roots.getD 0 none).bind fun r => leafEntry s0.mem.base off.toNat 5 r with
    | .leaf t, some a =>
      let old := t.frame / 65536
      if !s.mayMove tag old frame then s
      else
        let s := s0.invalidateFrames fun x => x == old || x == frame
        let m := s.mem.base
        let x := m.nat a 8
        let m := (List.range 512).foldl (fun m k => copyLine s.mem.base (old * 65536 + 128 * k) m (frame * 65536 + 128 * k)) m
        let m := m.setBytes a (natLE 8 (x / 2 ^ 52 * 2 ^ 52 + frame * 65536 + x % 65536))
        let s := s.modMem fun d => { d with base := m }
        if s.svc.lpFrames.contains old then s.modSvc fun v => v.notePoison frame else s
    | _, _ => s)

end Sys2Proof.Machine
end

