-- ==== Sys2Proof/Machine/Window.lean ====
section
/-!
DEFINITION. The register windows (R319 to R321, R341, R353 to R357, R374, R398, R400, R418), their writes and reads, and the accesses of
the host to device memory (R268, R355).
-/
namespace Sys2Proof.Machine
open Sys2Proof

/-- A function whose window acts on writes: it exists and is not resetting (R353, R369). -/
def State.windowOpen (s : State) (f : Nat) : Bool := s.present f && !(s.func f).resetting

/-! ## Queues (R319 to R321, R341) -/

/-- WIDX may become `v` (R321). -/
def Queue.takes (q : Queue) (v : Word) : Bool :=
  decide ((v - q.ridx).toNat ≤ 2 ^ q.log2n) && decide ((q.widx - q.ridx).toNat ≤ (v - q.ridx).toNat)
/-- A write of QWRITE by a function. -/
def State.writeQwrite (s : State) (f q : Nat) (v : Word) : State :=
  if s.windowOpen f && s.holdsQueue f q && (s.queue q).takes v then s.modQueue q fun x => { x with widx := v } else s
/-- Enter the drain state, with the mark at QWRITE (R341). -/
def Queue.toDrain (q : Queue) : Queue := if q.drain then q else { q with drain := true, mark := some q.widx }
/-- WEIGHT and CLASS, and LOG2N and CTX while EN is 0, as a write of QCTL sets them (R319). -/
def Queue.setFields (q : Queue) (v : Word) : Queue :=
  let n := bitsAt v.toNat 11 5
  { q with
    weight := bitsAt v.toNat 16 8, cls := bitsAt v.toNat 0 2
    log2n := if q.en then q.log2n else if 4 ≤ n ∧ n ≤ 16 then n else q.log2n
    -- RIDX names another packet in a ring of another size: what was met was met for the old one (R325)
    metBy := if !q.en && decide (4 ≤ n) && decide (n ≤ 16) && n != q.log2n then none else q.metBy
    ctx := if q.en then q.ctx else bitsAt v.toNat 24 6 }
/-- A write of QCTL by a function (R319 to R321, R341, R353). A killed context admits no work (R367), so EN stays clear for one. -/
def State.writeQctl (s : State) (f q : Nat) (v : Word) : State :=
  if !(s.windowOpen f && s.holdsQueue f q) then s
  else
    let x := s.queue q
    let on := v.getLsbD 31
    let y := x.setFields v
    let y := if v.getLsbD 30 then y.toDrain else y
    if on && !x.en then
      if s.holdsCtx f y.ctx && (s.ctx y.ctx).live then s.modQueue q fun _ => { y with en := true, claim := if f < 2 then some f else none } else s
    else if !on && x.en then s.modQueue q fun _ => y.disable
    else s.modQueue q fun _ => y
/-- QWRITE (R321). -/
def execQwrite (f q : Nat) (v : Word) (s : State) : Out := .next (s.writeQwrite f q v)
/-- QCTL_EN_SET (R320): a write of QCTL with EN set where EN was clear. -/
def execQctlEnSet (f q : Nat) (v : Word) (s : State) : Out :=
  .next (if v.getLsbD 31 && !(s.queue q).en then s.writeQctl f q v else s)
/-- QCTL_EN_CLEAR (R321): a write of QCTL with EN clear where EN was set. -/
def execQctlEnClear (f q : Nat) (v : Word) (s : State) : Out :=
  .next (if !v.getLsbD 31 && (s.queue q).en then s.writeQctl f q v else s)
/-- QCTL_DRAIN (R341): a write of QCTL with DRAIN set that leaves EN as it is. -/
def execQctlDrain (f q : Nat) (v : Word) (s : State) : Out :=
  .next (if v.getLsbD 30 && v.getLsbD 31 == (s.queue q).en then s.writeQctl f q v else s)
/-- QSTAT (R319, R321, R341). -/
def State.qstat (s : State) (q : Nat) : Nat :=
  let x := s.queue q
  let busy := s.launches.any fun l => l.queue == q
  if x.drain then (if busy || !x.drained then 2 else 3) else if busy then 1 else 0

/-! ## The control semaphore and the doorbell (R357, R362) -/

/-- ACQ and REL of a write of CTLSEM from a port. -/
def Service.semaphore (v : Service) (f : Nat) (acq rel : Bool) : Service :=
  let v := if acq && v.holder == 0 then { v with holder := f + 1 } else v
  if rel && v.holder == f + 1 then { v with holder := 0 } else v
/-- A write of CTLSEM. -/
def State.writeCtlsem (s : State) (f : Nat) (acq rel : Bool) : State :=
  if s.windowOpen f && decide (f < 2) then s.modSvc fun v => v.semaphore f acq rel else s
/-- CTLSEM_ACQ (R362). -/
def execCtlsemAcq (f : Nat) (s : State) : Out := .next (s.writeCtlsem f true false)
/-- CTLSEM_REL (R362). -/
def execCtlsemRel (f : Nat) (s : State) : Out := .next (s.writeCtlsem f false true)
/-- PORT_LINK_DOWN (R362): the port's link goes down, or the port receives a conventional reset. Its hold of the semaphore ends, and a request
that its physical function has in progress completes. The link then runs CXL or PCI Express, as the event says (R13; log 63). -/
def execPortLinkDown (link : LinkDown) (s : State) : Out :=
  .next (s.modSvc fun v =>
    let v := { v with ports := updAt v.ports link.port fun p => { p with cxl := link.cxl } }
    if v.holder == link.port + 1 then
      { v with holder := 0, grace := if (s.func link.port).busy then noted link.port v.grace else v.grace }
    else v)
/-- VF_ENABLE (R353). -/
def execVfEnable (port : Nat) (on : Bool) (s : State) : Out :=
  .next (s.modSvc fun v => { v with ports := updAt v.ports port fun p => { p with vfEnable := on } })
/-- A write of MBDOOR: the request joins the Safelight's order, unless BUSY (R357). -/
def State.ringDoor (s : State) (f : Nat) : State :=
  let x := s.func f
  if !s.windowOpen f || x.busy then s
  else ((s.modFunc f fun x => { x with busy := true }).modSvc fun v => { v with mailbox := v.mailbox ++ [(f, x.mbreq)] }).nextRequest
/-- MBDOOR (R357). -/
def execMbdoor (f : Nat) (s : State) : Out := .next (s.ringDoor f)

/-! ## Context registers (R356, R374, R398, R400) -/

/-- Put a word into the low or high half of a 64-bit register; the low half keeps the bits of `keep`. -/
def setLow (d : DWord) (v keep : Word) : DWord := joinWords (v &&& keep) (highWord d)
def setHigh (d : DWord) (v : Word) : DWord := joinWords (lowWord d) v
/-- SRDONE may become `v` (R398): not past SRSEQ, and not backwards. -/
def Ctx.srTakes (c : Ctx) (v : Word) : Bool :=
  decide ((v - BitVec.ofNat 32 c.srSeq).toInt ≤ 0) && decide (0 ≤ (v - BitVec.ofNat 32 c.srDone).toInt)
/-- SRDONE is written (R398): requests up to it are resolved. -/
def Ctx.setDone (c : Ctx) (v : Word) : Ctx :=
  if c.srTakes v then
    let c := { c with srDone := v.toNat }
    { c with misses := c.misses.filter fun m => !c.resolved m.2.2 }
  else c
/-- A write of INJCTL (R400). -/
def State.writeInjctl (s : State) (tag : Nat) (v : Word) : State :=
  let c := s.ctx tag
  let level := bitsAt v.toNat 0 2
  if !c.inject then s
  else if !v.getLsbD 3 then s.modCtx tag fun c => { c with injArm := false, injUnc := v.getLsbD 2, injLevel := level }
  else if level = 3 then s
  else match s.walk 4 tag 0 c.injAddr with
    | .fault _ => s
    | .leaf t => s.modCtx tag fun c =>
      { c with injArm := true, injUnc := v.getLsbD 2, injLevel := level, injSector := (t.frame + c.injAddr.toNat % 65536) / 32 }
/-- A write of an event counter: an increment event and a release at system scope (R325, R356). -/
def State.writeEctr (s : State) (tag n : Nat) (v : Word) : State :=
  if n < 64 then (s.modMem DevMem.sync).countEvent tag n fun _ => v else s
/-- A write to offset `o` of the block of a context. -/
def State.writeCtx (s : State) (tag o : Nat) (v : Word) : State :=
  let set (g : Ctx → Ctx) : State := s.modCtx tag g
  let quiet := !(s.launches.any fun l => l.tag == tag)
  let n := bitsAt v.toNat 0 5
  if o < 0x100 then s.writeEctr tag (o / 4) v
  else match o with
    | 0x100 => set fun c => { c with eqBase := setLow c.eqBase v 0xFFFFF000#32 }
    | 0x104 => set fun c => { c with eqBase := setHigh c.eqBase v }
    | 0x108 => set fun c => { c with eqEn := v.getLsbD 31, eqLog2n := if 4 ≤ n ∧ n ≤ 16 then n else c.eqLog2n }
    | 0x110 => set fun c => { c with eqRead := v }
    | 0x114 => set fun c => { c with eqLost := v.toNat % 65536 }
    | 0x120 => set fun c => { c with spBase := setLow c.spBase v 0xFFFF0000#32 }
    | 0x124 => set fun c => { c with spBase := setHigh c.spBase v }
    | 0x128 => set fun c => { c with spSize := v }
    | 0x140 => if quiet then set fun c => { c with csBase := setLow c.csBase v 0xFFFF0000#32 } else s
    | 0x144 => if quiet then set fun c => { c with csBase := setHigh c.csBase v } else s
    | 0x148 => set fun c => { c with csEn := v.getLsbD 31, csPair := if quiet then v.getLsbD 0 else c.csPair }
    | 0x150 => set fun c => { c with csDrop := v.toNat % 65536 }
    | 0x164 => set fun c => c.setDone v
    | 0x170 => s.writeInjctl tag v
    | 0x174 => set fun c => if c.inject && !c.injArm then { c with injAddr := setLow c.injAddr v 0xFFFFFFFF#32 } else c
    | 0x178 => set fun c => if c.inject && !c.injArm then { c with injAddr := setHigh c.injAddr v } else c
    | _ => s
/-- Whether a function may act on the block of a context. -/
def State.ctxOpen (s : State) (f tag : Nat) : Bool := s.windowOpen f && s.holdsCtx f tag
/-- ECTR_WRITE (R325, R356). -/
def execEctrWrite (f tag n : Nat) (v : Word) (s : State) : Out := .next (if s.ctxOpen f tag then s.writeEctr tag n v else s)
/-- SRDONE_WRITE (R398). -/
def execSrdoneWrite (f tag : Nat) (v : Word) (s : State) : Out :=
  .next (if s.ctxOpen f tag then s.modCtx tag fun c => c.setDone v else s)
/-- INJCTL_ARM (R400): a write of INJCTL with ARM set. -/
def execInjctlArm (f tag : Nat) (v : Word) (s : State) : Out :=
  .next (if s.ctxOpen f tag && v.getLsbD 3 then s.writeInjctl tag v else s)
/-- INJCTL_DISARM (R400): a write of INJCTL with ARM clear. -/
def execInjctlDisarm (f tag : Nat) (v : Word) (s : State) : Out :=
  .next (if s.ctxOpen f tag && !v.getLsbD 3 then s.writeInjctl tag v else s)

/-! ## BAR0 (R8, R354, R355) -/

/-- A write to offset `o` of the block of a queue (R319). -/
def State.writeQueue (s : State) (f q o : Nat) (v : Word) : State :=
  let set (g : Queue → Queue) : State :=
    if s.windowOpen f && s.holdsQueue f q && !(s.queue q).en then s.modQueue q g else s
  match o with
  | 0x00 => set fun x => { x with base := setLow x.base v 0xFFFFF000#32, metBy := none }
  | 0x04 => set fun x => { x with base := setHigh x.base v, metBy := none }
  | 0x08 => set fun x => { x with place := v.setWidth 16, metBy := none }
  | 0x0C => s.writeQctl f q v
  | 0x10 => s.writeQwrite f q v
  | _ => s
/-- A write to offset `o` of the function control block (R355). -/
def State.writeControl (s : State) (f o : Nat) (v : Word) : State :=
  if !s.windowOpen f then s
  else if o = 0 then (if v.getLsbD 0 then (s.resetSet f).foldl State.flrStart s else s)
  else if o = 8 then s.writeCtlsem f (v.getLsbD 2) (v.getLsbD 3)
  else if o = 0xC then s.modFunc f fun x => { x with hctx := v.toNat % 64 }
  else if 0x40 ≤ o ∧ o < 0x80 then s.modFunc f fun x => { x with mbreq := updAt x.mbreq ((o - 0x40) / 4) fun _ => v }
  else if o = 0x80 then s.ringDoor f
  else s
/-- A 32-bit write to BAR0 of a function. -/
def State.bar0Write (s : State) (f off : Nat) (v : Word) : State :=
  if off % 4 ≠ 0 then s
  else if off < 0x100 then s.writeControl f off v
  else if 0x10000 ≤ off ∧ off < 0x14000 then s.writeQueue f ((off - 0x10000) / 64) (off % 64) v
  else if 0x20000 ≤ off ∧ off < 0x60000 then
    let tag := (off - 0x20000) / 4096
    if s.ctxOpen f tag then s.writeCtx tag (off % 4096) v else s
  else s
/-- REGISTER_WRITE (R8): each field is written by its access code; every other offset ignores writes (R354). -/
def execRegisterWrite (f off : Nat) (v : Word) (s : State) : Out := .next (s.bar0Write f off v)

/-! ## The census window (R402) -/

/-- A bit mask as a number. -/
def bitSet (n : Nat) (f : Nat → Bool) : Nat := (List.range n).foldl (fun m i => if f i then m + 2 ^ i else m) 0
/-- CSTAT (R356). -/
def State.cstat (s : State) (tag : Nat) : Nat :=
  let c := s.ctx tag
  if c.state = 0 then 0
  else c.cause % 256 * 256 + (if (s.func c.func).isolated then 8 else 0) + (if c.inject then 4 else 0) + c.state % 4
/-- The entry of a die. -/
def State.censusDie (s : State) (d : Nat) : List Byte :=
  let h := s.svc.dies.getD d DieHealth.fresh
  padTo 64 (natLE 8 (bitSet 64 fun c => (s.coreAt (d * 64 + c)).enabled)
    ++ natLE 2 (bitSet 16 fun k => !s.svc.failedClusters.contains (d * 16 + k) && !(s.coresOf (d * 16 + k)).isEmpty)
    ++ natLE 2 h.strong.length ++ natLE 4 h.quarantined ++ natLE 4 h.retired ++ natLE 8 h.corrected ++ natLE 8 h.uncorrectable
    ++ natLE 8 h.injected)
/-- The entry of a context. -/
def State.censusCtx (s : State) (t : Nat) : List Byte :=
  let c := s.ctx t
  if c.state = 0 then zeros 32
  else
    let ls := s.launches.filter fun l => l.tag == t
    -- the firmware context is no function's: its field is 0 (log 78)
    padTo 32 (natLE 4 (if c.func < 18 then c.func else 0) ++ natLE 4 (s.cstat t) ++ natLE 4 ls.length
      ++ natLE 4 (ls.foldl (fun n l => n + (l.units.filter fun u => u.state == .saved).length) 0))
/-- The contents of the window from 0x000 to 0xBFF, with the given CGEN. -/
def State.censusNow (s : State) (cgen : Word) : List Byte :=
  padTo 0x40 (natLE 4 cgen.toNat ++ natLE 4 1 ++ natLE 4 (s.svc.health % 4 + if s.svc.replace then 4 else 0) ++ natLE 4 s.svc.stepping
      ++ natLE 4 s.fabric.node ++ natLE 4 s.svc.planes.toNat)
    ++ padTo 0x3C0 ((List.range 4).flatMap s.censusDie) ++ (List.range 64).flatMap s.censusCtx
/-- The window from 0x000 to 0xBFF, word by word. -/
def State.censusWords (s : State) (cgen : Word) : List Word :=
  let bs := s.censusNow cgen
  (List.range 768).map fun i => BitVec.ofNat 32 (numAt bs (4 * i) 4)
/-- The shadow copy, word by word; before the first update it is the window as it stands at reset (log 48). -/
def State.shadowWords (s : State) : List Word := if s.svc.shadow.isEmpty then State.reset.censusWords 0#32 else s.svc.shadow
/-- CENSUS_UPDATE (R402): the start of an update makes CGEN odd, and its end enters the new contents and makes CGEN even again. -/
def execCensusUpdate (s : State) : Out :=
  .next (
    let g := s.svc.cgen + 1
    s.modSvc fun v => { v with cgen := g, shadow := if s.svc.cgen.getLsbD 0 then s.censusWords g else updAt s.shadowWords 0 fun _ => g })
/-- The bytes of the shadow copy. -/
def State.shadowBytes (s : State) : List Byte :=
  if s.svc.shadow.isEmpty then State.reset.censusNow 0#32 else s.svc.shadow.flatMap fun w => natLE 4 w.toNat
/-- The shadow copy does not show the device as it is, or its update has begun (R402). -/
def State.censusStale (s : State) : Bool := s.svc.runs && (s.svc.cgen.getLsbD 0 || s.shadowBytes != s.censusNow s.svc.cgen)
/-- Bytes of the census window as a function sees it; none stands for the management port, which sees every context. -/
def State.censusBytes (s : State) (f : Option Nat) (off len : Nat) : List Byte :=
  let bs := s.shadowBytes
  let hidden (i : Nat) : Bool := match f with
    | some f => decide (2 ≤ f) && decide (0x400 ≤ i) && decide (i < 0xC00) && numAt bs (i / 32 * 32) 4 != f
    | none => false
  (List.range len).map fun k => if hidden (off + k) then 0#8 else bs.getD (off + k) 0#8

/-! ## Reads of BAR0 -/

/-- A read of the block of a queue. -/
def State.readQueue (s : State) (q o : Nat) : Word :=
  let x := s.queue q
  match o with
  | 0x00 => lowWord x.base
  | 0x04 => highWord x.base
  | 0x08 => x.place.setWidth 32
  | 0x0C => BitVec.ofNat 32 ((if x.en then 2 ^ 31 else 0) + (if x.drain then 2 ^ 30 else 0) + x.ctx % 64 * 2 ^ 24 + x.weight % 256 * 2 ^ 16
      + x.log2n % 32 * 2 ^ 11 + x.cls % 4)
  | 0x10 => x.widx
  | 0x14 => x.ridx
  | 0x18 => BitVec.ofNat 32 (s.qstat q)
  | _ => 0#32
/-- A read of the block of a context. -/
def State.readCtx (s : State) (tag o : Nat) : Word :=
  let c := s.ctx tag
  let bit (b : Bool) (n : Nat) : Nat := if b then 2 ^ n else 0
  if o < 0x100 then c.ectr.getD (o / 4) 0#32
  else match o with
    | 0x100 => lowWord c.eqBase
    | 0x104 => highWord c.eqBase
    | 0x108 => BitVec.ofNat 32 (bit c.eqEn 31 + c.eqLog2n)
    | 0x10C => c.eqWrite
    | 0x110 => c.eqRead
    | 0x114 => BitVec.ofNat 32 c.eqLost
    | 0x120 => lowWord c.spBase
    | 0x124 => highWord c.spBase
    | 0x128 => c.spSize
    | 0x130 => BitVec.ofNat 32 (s.cstat tag)
    | 0x140 => lowWord c.csBase
    | 0x144 => highWord c.csBase
    | 0x148 => BitVec.ofNat 32 (bit c.csEn 31 + bit c.csPair 0)
    | 0x14C => c.csSeq
    | 0x150 => BitVec.ofNat 32 c.csDrop
    | 0x160 => BitVec.ofNat 32 c.srSeq
    | 0x164 => BitVec.ofNat 32 c.srDone
    | 0x170 => BitVec.ofNat 32 (bit c.injArm 3 + bit c.injUnc 2 + c.injLevel)
    | 0x174 => lowWord c.injAddr
    | 0x178 => highWord c.injAddr
    | _ => 0#32
/-- The contexts that a function holds. -/
def State.held (s : State) (f : Nat) : Nat := ((List.range 64).filter fun t => s.holdsCtx f t).length
/-- The sum of the virtual functions' quotas. -/
def Service.quotas (v : Service) : Nat := (v.funcs.drop 2).foldl (fun n f => n + f.quota) 0
/-- CQUOTA (R418). -/
def State.quota (s : State) (f : Nat) : Nat := if f < 2 then 63 - s.svc.quotas else (s.func f).quota
/-- A read of the function control block. -/
def State.readControl (s : State) (f o : Nat) : Word :=
  let x := s.func f
  if 0x40 ≤ o ∧ o < 0x80 then x.mbreq.getD ((o - 0x40) / 4) 0#32
  else match o with
    | 0x04 => BitVec.ofNat 32 (s.quota f % 256 * 2 ^ 16 + s.held f % 256 * 2 ^ 8 + if x.resetting then 1 else 0)
    | 0x08 => BitVec.ofNat 32 s.svc.holder
    | 0x0C => BitVec.ofNat 32 x.hctx
    | 0x84 => BitVec.ofNat 32 ((if x.busy then 2 ^ 31 else 0) + x.status)
    | 0x88 => x.result
    | _ => 0#32
/-- A 32-bit read of BAR0 of a function (R354 to R356, R319); no read has a side effect. FSTAT of a function that does not exist says so. -/
def State.bar0Read (s : State) (f off : Nat) : Word :=
  if !s.present f then (if off = 4 then 2#32 else 0#32)
  else if off % 4 ≠ 0 then 0#32
  else if off < 0x100 then s.readControl f off
  else if 0x1000 ≤ off ∧ off < 0x10000 then BitVec.ofNat 32 (leNat (s.censusBytes (some f) (off - 0x1000) 4))
  else if 0x10000 ≤ off ∧ off < 0x14000 then
    let q := (off - 0x10000) / 64
    if s.holdsQueue f q then s.readQueue q (off % 64) else 0#32
  else if 0x20000 ≤ off ∧ off < 0x60000 then
    let tag := (off - 0x20000) / 4096
    if s.holdsCtx f tag then s.readCtx tag (off % 4096) else 0#32
  else 0#32

/-! ## Host access to device memory (R264, R268, R355) -/

/-- What a host read brings. -/
inductive HostRead where
  | data (bs : List Byte) (psn : Bool)
  | fault
  deriving DecidableEq, Repr, Inhabited
/-- The read of bytes by an agent of the bridge die, in the view of the home die; `fuel` bounds the sectors. A page miss queues a
service request. -/
def State.hostBytes (s : State) (tag : Nat) : Nat → DWord → Nat → State × HostRead
  | 0, _, _ => (s, .data [] false)
  | fuel + 1, off, n =>
    if n = 0 then (s, .data [] false)
    else
      let o := { Origin.device 4 with addr := some (off, 0xFFF8#16) }
      let l := s.lookup none 4 tag 0 off false
      let s := l.1
      match l.2 with
      | .fault .pageMiss => ((s.svcReq tag 0 off o).1, .fault)
      | .fault _ => (s, .fault)
      | .leaf t =>
        let pa := t.frame + off.toNat % 65536
        let die := homeDie pa
        let k := min n (32 - pa % 32)
        let a := s.access die tag pa o t.mt
        let bad := a.2.isSome || (a.1.tokenOf die pa).isSome
        let bs := a.1.bytesAt die pa k
        let r := a.1.hostBytes tag fuel (off + BitVec.ofNat 64 k) (n - k)
        match r.2 with
        | .fault => (r.1, .fault)
        | .data more p => (r.1, .data (bs ++ more) (bad || p))
/-- A host write under a context: one that meets a translation row other than the last writes nothing (R355). -/
def State.hostStore (s : State) (tag : Nat) (off : DWord) (bs : List Byte) : State :=
  match s.engineWrite none 4 tag off bs with
  | (s, some .pageMiss) =>
    let miss := match s.walk 4 tag 0 off with
      | .fault .pageMiss => off
      | _ => off + BitVec.ofNat 64 (bs.length - 1)
    (s.svcReq tag 0 miss { Origin.device 4 with addr := some (miss, 0xFFF8#16) }).1
  | (s, _) => s
/-- The completion of a host read. -/
def State.answerHost (s : State) (status : Nat) (bs : List Byte) (psn : Bool) : State := s.send (.completion status bs psn)
/-- Read for the host under the context that HCTX of a function names (R355). -/
def State.hostLoad (s : State) (f : Nat) (off : DWord) (size : Nat) : State :=
  let tag := (s.func f).hctx
  if !s.holdsCtx f tag then s.answerHost 1 [] false
  else
    let r := s.hostBytes tag (size / 32 + 2) off size
    match r.2 with
    | .data bs p => r.1.answerHost 0 bs p
    | .fault => r.1.answerHost 2 [] false
/-- BAR2_READ (R355). -/
def execBar2Read (f : Nat) (off : DWord) (size : Nat) (s : State) : Out :=
  .next (if s.present f then s.hostLoad f off size else s)
/-- BAR2_WRITE (R355). One under a context that the function does not hold completes with Unsupported Request. -/
def execBar2Write (f : Nat) (off : DWord) (data : List Byte) (s : State) : Out :=
  .next (
    let tag := (s.func f).hctx
    if !s.windowOpen f then s
    else if s.holdsCtx f tag then s.hostStore tag off data
    else s.answerHost 1 [] false)
/-- Track a line that the host has read; a full directory back-invalidates its oldest line. -/
def State.trackLine (s : State) (line : Nat) : State :=
  let mine := s.svc.directory.filter fun l => homeDie (l * 128) == homeDie (line * 128)
  let s := if mine.length < 2 ^ 18 ∨ line ∈ s.svc.directory then s
    else match mine with
      | [] => s
      | old :: _ => (s.modSvc fun v => { v with directory := v.directory.filter fun l => l != old }).send (.backInvalidate 0 old)
  s.modSvc fun v => { v with directory := if line ∈ v.directory then v.directory else v.directory ++ [line] }
/-- HOST_CXL_MEM_ACCESS (R268): through CXL.mem, under the context of the port's physical function; a line read becomes one the host may
cache. -/
def execHostCxlMemAccess (port : Nat) (off : DWord) (size : Nat) (data : Option (List Byte)) (s : State) : Out :=
  .next (
    let tag := (s.func port).hctx
    if !s.windowOpen port || !(s.svc.ports.getD port default).cxl then s
    else if !s.holdsCtx port tag then s.answerHost 1 [] false
    else match data with
      | some bs => s.hostStore tag off bs
      | none => match (s.lookup none 4 tag 0 off false).2 with
        | .leaf t => (s.hostLoad port off size).trackLine ((t.frame + off.toNat % 65536) / 128)
        | .fault _ => s.hostLoad port off size)

end Sys2Proof.Machine
end

