-- ==== Sys2Proof/Machine/Mailbox.lean ====
section
/-!
DEFINITION. The Safelight's mailbox (R357, R358, R360, R363, R365, R371, R418): one meaning for each command. A request takes effect wholly
or not at all, in the order of the doorbells.
-/
namespace Sys2Proof.Machine
open Sys2Proof

/-- STATUS of R358: OK, DENIED, INVALID, NORES, CONFLICT. -/
inductive MbStatus where
  | ok | denied | invalid | nores | conflict
  deriving DecidableEq, Repr, Inhabited
/-- Its code. -/
def MbStatus.code : MbStatus → Nat
  | .ok => 0
  | .denied => 1
  | .invalid => 2
  | .nores => 3
  | .conflict => 4

/-- The oldest request is command `code` of function `f` with argument words `a` (w1 on). -/
def State.atHead (s : State) (f code : Nat) (a : List Word) : Bool := match s.svc.mailbox with
  | (g, w :: ws) :: _ => g == f && w.toNat % 256 == code && ws == a
  | _ => false
/-- The oldest request is answered, and the Safelight goes on to the next. -/
def State.answerMb (s : State) (f : Nat) (st : MbStatus) (res : Nat) : State := (s.answerOldest f st.code res).nextRequest
/-- Carry out the oldest request, if it is this one: `go` gives the state with its effects, STATUS and RESULT. Where the status is not OK
the effects are none (R357). -/
def State.serve (s : State) (f code : Nat) (a : List Word) (go : State → State × MbStatus × Nat) : State :=
  if !s.atHead f code a then s
  else
    let r := go s
    (if r.2.1 = .ok then r.1 else s).answerMb f r.2.1 r.2.2
/-- A refusal. -/
def State.refuseMb (s : State) (st : MbStatus) : State × MbStatus × Nat := (s, st, 0)
/-- Argument word n, counted from 1, as a number. -/
def arg (a : List Word) (n : Nat) : Nat := (a.getD (n - 1) 0#32).toNat
/-- A 64-bit argument from words n and n + 1. -/
def arg64 (a : List Word) (n : Nat) : DWord := joinWords (a.getD (n - 1) 0#32) (a.getD n 0#32)
/-- A physical function whose port holds CTLSEM, or held it when its request was in progress and its link went down (R358, R362, R363). -/
def State.isHolder (s : State) (f : Nat) : Bool := decide (f < 2) && (s.svc.holder == f + 1 || s.svc.grace.contains f)
/-- The checks of a command that names a context: its tag is a program tag, and the function holds it. -/
def State.tagCheck (s : State) (f tag : Nat) : Option MbStatus :=
  if tag = 0 ∨ 64 ≤ tag then some .invalid else if s.holdsCtx f tag then none else some .denied

/-- CREATE (R358, R418): the lowest free tag. -/
def execCreate (f : Nat) (a : List Word) (s : State) : Out :=
  .next (s.serve f 1 a fun s =>
    let inject := (a.getD 0 0#32).getLsbD 0
    let used := if f < 2 then s.held 0 + s.held 1 else s.held f
    if inject && !s.isHolder f then s.refuseMb .denied
    else if s.quota f ≤ used then s.refuseMb .nores
    else match ((List.range 64).drop 1).find? fun t => (s.ctx t).state == 0 with
      | none => s.refuseMb .nores
      | some t => (s.modCtx t fun _ => { Ctx.fresh with state := 1, func := f, inject := inject }, .ok, t))
/-- DESTROY must wait: the kill that it asked for has begun, and requests of the context are outstanding (R367). -/
def State.destroyWaits (s : State) (f : Nat) (a : List Word) : Bool :=
  (s.tagCheck f (arg a 1)).isNone && (s.ctx (arg a 1)).dying.isSome && !s.killReady (arg a 1)
/-- DESTROY (R358, R367): it begins the kill, and stays in progress until that has ended. -/
def execDestroy (f : Nat) (a : List Word) (s : State) : Out :=
  let go := s.destroyContext (arg a 1)
  .next (if s.atHead f 2 a && (s.tagCheck f (arg a 1)).isNone && (go.ctx (arg a 1)).dying.isSome then go
    else s.serve f 2 a fun s =>
    match s.tagCheck f (arg a 1) with
    | some st => s.refuseMb st
    | none => (s.destroyContext (arg a 1), .ok, 0))
/-- SETROOT (R358, R193, R351): a table is 8 KiB-aligned in device memory, and its frame is one the function may use. -/
def execSetroot (f : Nat) (a : List Word) (s : State) : Out :=
  .next (s.serve f 3 a fun s =>
    let root := (arg64 a 3).toNat
    match s.tagCheck f (arg a 1) with
    | some st => s.refuseMb st
    | none =>
      if 2 < arg a 2 ∨ root % 8192 ≠ 0 ∨ 2 ^ 40 ≤ root ∨ s.svc.mayUse f (root / 65536) = false then s.refuseMb .invalid
      else (s.modCtx (arg a 1) fun c => { c with roots := updAt c.roots (arg a 2) fun _ => some root }, .ok, 0))
/-- INVAL must wait: accesses that used an old translation are still to be performed (R197, R256). -/
def State.invalWaits (s : State) (f : Nat) (a : List Word) : Bool :=
  (s.tagCheck f (arg a 1)).isNone && decide (arg a 2 ≤ 2) && s.settling (arg a 1) (arg a 2)
/-- INVAL (R358, R197): it stays in progress while it must wait. -/
def execInval (f : Nat) (a : List Word) (s : State) : Out :=
  .next (if s.invalWaits f a then s else s.serve f 4 a fun s =>
    match s.tagCheck f (arg a 1) with
    | some st => s.refuseMb st
    | none =>
      if 2 < arg a 2 then s.refuseMb .invalid
      else (s.invalidatePages (arg a 1) (arg a 2) ((arg64 a 3).toNat / 65536) (arg a 5), .ok, 0))

/-- The frames of a range lie in device memory. -/
def framesOk (first count : Nat) : Bool := decide (first + count ≤ 2 ^ 24)
/-- A change to frames must wait: copies of a context that may use one of them are under way (R197, R256, R351). -/
def State.framesWait (s : State) (first n : Nat) : Bool :=
  (List.range 64).any fun t => s.copying t && (List.range n).any fun k => s.svc.mayUse (s.ctx t).func (first + k)
/-- GRANT must wait. -/
def State.grantWaits (s : State) (f : Nat) (a : List Word) : Bool :=
  s.isHolder f && decide (arg a 1 < 18) && framesOk (arg a 2) (arg a 3) && !s.resetsNow (arg a 1) && s.framesWait (arg a 2) (arg a 3)
/-- GRANT (R358, R351, R396): it stays in progress while it must wait. A frame with a LINE_POISON sector whose previous owner is another
function is retired in its place. -/
def execGrant (f : Nat) (a : List Word) (s : State) : Out :=
  .next (if s.grantWaits f a then s else s.serve f 5 a fun s =>
    let g := arg a 1
    let first := arg a 2
    let n := arg a 3
    if !s.isHolder f then s.refuseMb .denied
    else if 18 ≤ g ∨ framesOk first n = false then s.refuseMb .invalid
    else if s.resetsNow g then s.refuseMb .conflict
    else
      let inRange (x : Nat) : Bool := decide (first ≤ x) && decide (x < first + n)
      let moves (x : Nat) : Bool := inRange x && (s.svc.frame x).1 != g
      let bad := s.svc.lpFrames.filter fun x => moves x && decide ((s.svc.frame x).1 < 18)
      let s := (s.invalidateFrames inRange).zeroFrames fun x => moves x && !bad.contains x
      let s := (List.range n).foldl (fun s k => if bad.contains (first + k) then s else s.modSvc fun v => v.setFrame (first + k) g 0#18) s
      (bad.foldl State.retireFrame s, .ok, bad.length))
/-- The function owns every frame of a range. -/
def State.ownsFrames (s : State) (f first n : Nat) : Bool := (List.range n).all fun k => (s.svc.frame (first + k)).1 == f
/-- SHARE must wait. -/
def State.shareWaits (s : State) (f : Nat) (a : List Word) : Bool :=
  s.ownsFrames f (arg a 2) (arg a 3) && decide (arg a 1 < 18) && framesOk (arg a 2) (arg a 3) && decide (arg a 4 ≤ 1)
    && !s.resetsNow (arg a 1) && s.framesWait (arg a 2) (arg a 3)
/-- SHARE (R358, R351): it stays in progress while it must wait, and completes as an invalidation of the frames. -/
def execShare (f : Nat) (a : List Word) (s : State) : Out :=
  .next (if s.shareWaits f a then s else s.serve f 6 a fun s =>
    let g := arg a 1
    let first := arg a 2
    let n := arg a 3
    if !s.ownsFrames f first n then s.refuseMb .denied
    else if 18 ≤ g ∨ framesOk first n = false ∨ 1 < arg a 4 then s.refuseMb .invalid
    else if s.resetsNow g then s.refuseMb .conflict
    else
      let bit : BitVec 18 := 1#18 <<< g
      let s := s.invalidateFrames fun x => decide (first ≤ x) && decide (x < first + n)
      ((List.range n).foldl (fun s k => s.modSvc fun v =>
        let o := v.frame (first + k)
        v.setFrame (first + k) o.1 (if arg a 4 = 1 then o.2 ||| bit else o.2 &&& ~~~ bit)) s, .ok, 0))

/-- CHANNEL (R279, R358). -/
def execChannel (f : Nat) (a : List Word) (s : State) : Out :=
  .next (s.serve f 7 a fun s =>
    let tag := arg a 1
    let node := arg a 2
    let chan := arg a 3
    let hold := arg a 5
    let here (n c : Nat) : Bool := n == node && c == chan
    match s.tagCheck f tag with
    | some st => s.refuseMb st
    | none =>
      if 4608 ≤ node ∨ 16 ≤ chan ∨ 2 < arg a 4 ∨ (arg a 4 = 1 ∧ 10000 < hold) then s.refuseMb .invalid
      else match arg a 4 with
        | 0 =>
          if s.fabric.send.any fun c => here c.node c.chan && c.tag != tag then s.refuseMb .conflict
          else (s.modFab fun x =>
            { x with send := { node := node, chan := chan, tag := tag, count := 0#32 } :: x.send.filter fun c => !here c.node c.chan
                     sendIdle := setIdle x.sendIdle node chan 0#32 }, .ok, 0)
        | 1 =>
          if s.fabric.recv.any fun c => here c.node c.chan && c.tag != tag then s.refuseMb .conflict
          else
            let s := s.modFab fun x =>
              { x with recv := { node := node, chan := chan, tag := tag, count := 0#32, hold := if hold = 0 then 100 else hold, cause := none }
                         :: x.recv.filter fun c => !here c.node c.chan
                       recvIdle := setIdle x.recvIdle node chan 0#32
                       easel := x.easel.filter fun h => !here h.pkt.src h.pkt.chan
                       waiting := x.waiting.filter fun h => !here h.pkt.src h.pkt.chan }
            (s.admitLink, .ok, 0)
        | _ =>
          if (s.fabric.send.any fun c => here c.node c.chan && c.tag != tag) && !(s.fabric.recv.any fun c => here c.node c.chan && c.tag == tag)
              || (s.fabric.recv.any fun c => here c.node c.chan && c.tag != tag)
                && !(s.fabric.send.any fun c => here c.node c.chan && c.tag == tag) then s.refuseMb .conflict
          else (s.releaseChannels (fun c => here c.node c.chan && c.tag == tag) fun c => here c.node c.chan && c.tag == tag, .ok, 0))

/-- The queues of the mask in w7 to w14. -/
def queueMask (a : List Word) : List Nat := (List.range 256).filter fun q => (a.getD (6 + q / 32) 0#32).getLsbD (q % 32)
/-- A virtual function has a running unit. -/
def State.runsUnits (s : State) (f : Nat) : Bool := s.wgs.any fun g => !g.saved && !g.ended && (s.ctx g.tag).func == f
/-- VFASSIGN (R353, R358, R359, R418). -/
def execVfassign (f : Nat) (a : List Word) (s : State) : Out :=
  .next (s.serve f 8 a fun s =>
    let vf := arg a 1
    let g := vf + 1
    let clusters := arg64 a 3
    let ways : BitVec 16 := (a.getD 4 0#32).setWidth 16
    let quota := arg a 6
    let qs := queueMask a
    let others := (List.range 18).filter fun k => decide (2 ≤ k) && k != g
    let claimedWays := others.foldl (fun m k => m ||| (s.func k).ways) ways
    if !s.isHolder f then s.refuseMb .denied
    else if vf = 0 ∨ 16 < vf ∨ 1 < arg a 2 then s.refuseMb .invalid
    else if (List.range 16).foldl (fun n i => if claimedWays.getLsbD i then n else n + 1) 0 < 2 then s.refuseMb .invalid
    else if s.resetsNow g || s.runsUnits g || (others.any fun k =>
        ((s.func k).clusters &&& clusters) != 0#64 || ((s.func k).ways &&& ways) != 0#16 || qs.any (s.func k).queues.contains)
        || qs.any (fun q => (s.queue q).claim.isSome && !(s.func g).queues.contains q) then s.refuseMb .conflict
    else if 63 - (s.held 0 + s.held 1) < s.svc.quotas - (s.func g).quota + quota then s.refuseMb .nores
    else
      let lost := (s.func g).queues.filter fun q => !qs.contains q
      let s := lost.foldl (fun s q => s.modQueue q Queue.disable) s
      ((s.modFunc g fun x => { x with port := some (arg a 2), clusters := clusters, ways := ways, quota := quota, queues := qs }).rejectUnfit, .ok, 0))
/-- ISOLATE (R358, R360). -/
def execIsolate (f : Nat) (a : List Word) (s : State) : Out :=
  .next (s.serve f 9 a fun s =>
    let g := arg a 1
    let x := s.func g
    if !s.isHolder f then s.refuseMb .denied
    else if g < 2 ∨ 18 ≤ g ∨ 1 < arg a 2 then s.refuseMb .invalid
    else if s.resetsNow g then s.refuseMb .conflict
    else if arg a 2 = 0 then (s.modFunc g fun x => { x with isolated := false }, .ok, 0)
    else if x.clusters = 0#64 ∨ x.ways = 0#16 then s.refuseMb .invalid
    else if x.isolated = false ∧ 7 ≤ (s.svc.funcs.filter Func.isolated).length then s.refuseMb .nores
    else (s.modFunc g fun x => { x with isolated := true }, .ok, 0))
/-- Whether an image passes the checks of R365, and if so whether it is the command processor's. -/
def Service.admits (v : Service) (bs : List Byte) : Option Bool :=
  (Config.parseImage bs).bind fun i => (checkImage (if i.cp then v.cpImage.svn else v.slImage.svn) bs).map fun _ => i.cp
/-- FWUPDATE (R365): the image goes to the inactive flash slot once it has passed its check. -/
def execFwupdate (f : Nat) (a : List Word) (s : State) : Out :=
  .next (s.serve f 10 a fun s =>
    if !s.isHolder f then s.refuseMb .denied
    else match s.tagCheck f (arg a 1) with
      | some st => s.refuseMb st
      | none =>
        let n := arg a 4
        let r := s.hostBytes (arg a 1) (n / 32 + 2) (arg64 a 2) n
        match r.2 with
        | .data bs false => match s.svc.admits bs with
          | some true => (r.1.modSvc fun v => { v with cpImage := { v.cpImage with staged := some bs } }, .ok, 0)
          | some false => (r.1.modSvc fun v => { v with slImage := { v.slImage with staged := some bs } }, .ok, 0)
          | none => s.refuseMb .invalid
        | _ => s.refuseMb .invalid)
/-- DRAIN (R341, R358): every queue enters the drain state in one step. -/
def execDrain (f : Nat) (a : List Word) (s : State) : Out :=
  .next (s.serve f 11 a fun s =>
    if s.isHolder f then ({ s with queues := s.queues.map Queue.toDrain }, .ok, 0) else s.refuseMb .denied)

/-! ## Reset and power (R18, R365, R401, R403) -/

/-- Health as a reset recomputes it from the resources that fail self-test (R401; log 37). -/
def Service.selfTest (v : Service) : Service :=
  let bad := !v.failedClusters.isEmpty || !v.failedLinks.isEmpty || !v.failedChans.isEmpty
  let v := { v with health := 0, replace := false }
  (if v.planes = 0#18 then v else v.worsen 1).worsen (if bad then 2 else 0)
/-- The image of one kind boots (R365): the staged one if there is one. It runs if it passes its check, and the fused SVN then rises to its own.
The image that a device is made with passes, unless it is damaged (log 7). -/
def Flash.boot (f : Flash) : Flash × Bool :=
  let f := { f with image := f.staged <|> f.image, staged := none }
  match f.image with
  | none => (f, !f.damaged)
  | some bs => match checkImage f.svn bs with
    | some i => if f.damaged then (f, false) else ({ f with svn := i.svn }, true)
    | none => (f, false)
/-- The device after a reset (R403): every context, launch and core array is cleared, and so is device memory, which no context can read
before GRANT zeroes it (log 33). What has failed stays failed. The boot ROM checks the Safelight image, and the Safelight that of the command
processor (R365). The shadow copy of the census shows the device as it then is (R17, R402). -/
def State.resetDevice (s : State) : State :=
  let v := s.svc
  let r := State.reset.svc
  let sl := v.slImage.boot
  let cp := v.cpImage.boot
  let svc : Service := { r with
    stepping := v.stepping, planes := v.planes, failedLinks := v.failedLinks, failedChans := v.failedChans
    failedClusters := v.failedClusters, slImage := sl.1, safelight := sl.2
    cpImage := if sl.2 then cp.1 else v.cpImage, cpOk := sl.2 && cp.2
    ports := v.ports.map fun p => { p with vfEnable := false } }
  let core (c : Nat) : Core := { Core.fresh with enabled := (s.coreAt c).enabled }
  let coresOff := s.cores.any fun c => !c.enabled
  let t : State := { State.reset with
    cores := (List.range 256).map core, svc := svc.selfTest, fabric := { Fabric.fresh with node := s.fabric.node, out := s.fabric.out, routes := s.fabric.routes }
    tick := s.tick, nextId := s.nextId, inputs := s.inputs }
  let t := t.modSvc fun v => (v.worsen (if coresOff then 2 else 0)).worsen (if t.clustersOn.isEmpty || !v.cpOk then 3 else 0)
  t.modSvc fun v => { v with shadow := t.censusWords 0#32 }
/-- RESET (R358, R403). -/
def execReset (f : Nat) (a : List Word) (s : State) : Out :=
  .next (if !s.atHead f 12 a then s else if s.isHolder f then s.resetDevice else s.answerMb f .denied 0)
/-- COLD_RESET (R403, R18): power, where it was lost, has returned. -/
def execColdReset (s : State) : Out := .next s.resetDevice
/-- POWER_LOSS (R18): nothing is kept but what is held without power. -/
def execPowerLoss (s : State) : Out := .next (s.resetDevice.modSvc fun v => { v with powered := false })

end Sys2Proof.Machine
end

