-- ==== Sys2Proof/Machine/Manage.lean ====
section
/-!
DEFINITION. The management port and DOE (R18, R364, R366, R402, R403): census reads, the SPDM responder, PLDM sensors and the FRU EEPROM. Of an
SPDM request `via` says how it came: through MCTP, or through DOE on a function.
What a response holds beyond what R366 states is DMTF's, and is not modelled (log 30).
-/
namespace Sys2Proof.Machine
open Sys2Proof

/-- A response, given only while the Safelight runs (R18, R365), and through DOE only on functions 0 and 1 (R366). -/
def State.respond (s : State) (via : Option Nat) (code : Nat) (bs : List Byte) : State :=
  if s.svc.runs && via.all fun f => decide (f < 2) then s.send (.mgmt via code bs) else s
/-- CENSUS_READ (R402): an MCTP message of type 0x7E. -/
def execCensusRead (off len : Nat) (s : State) : Out := .next (s.respond none 0x7E (s.censusBytes none off len))
/-- GET_VERSION (R366): SPDM 1.2 and 1.3. -/
def execGetVersion (s : State) : Out := .next (s.respond s.via 0x04 [0x12#8, 0x13#8])
/-- GET_CAPABILITIES (R366): digests and certificates, challenge and signed measurements; no secure session. -/
def execGetCapabilities (s : State) : Out := .next (s.respond s.via 0x61 [0x16#8])
/-- NEGOTIATE_ALGORITHMS (R366): SHA-384, and under Oteth's vendor ID the extended asymmetric algorithm 0x0001. -/
def execNegotiateAlgorithms (s : State) : Out :=
  .next (s.respond s.via 0x63 (0x02#8 :: natLE 2 Config.vendorId.toNat ++ [0x01#8, 0x00#8]))

/-! ## Measurements, keys and certificates (R364, R366) -/

/-- The Safelight configuration: virtual-function assignments, isolation and the injection rights granted (R366). -/
def State.configBytes (s : State) : List Byte :=
  ((s.svc.funcs.drop 2).flatMap fun f =>
    natLE 1 (match f.port with
      | some p => p + 1
      | none => 0) ++ natLE 8 f.clusters.toNat ++ natLE 2 f.ways.toNat ++ natLE 1 f.quota ++ bitBytes 32 (fun q => f.queues.contains q)
      ++ natLE 1 (if f.isolated then 1 else 0))
    ++ bitBytes 8 fun t => (s.ctx t).inject
/-- A measurement block (R366), where the Safelight configuration is `config`. -/
def Service.measure (v : Service) (config : List Byte) (i : Nat) : List Byte :=
  sha384 (match i with
    | 1 => Config.bootRom
    | 2 => v.slImage.image.getD Config.madeSafelight
    | 3 => v.cpImage.image.getD Config.madeCp
    | 4 => config
    | _ => natLE 4 v.slImage.svn ++ natLE 4 v.cpImage.svn)
/-- A measurement block of the device as it stands. -/
def State.measure (s : State) (i : Nat) : List Byte := s.svc.measure s.configBytes i
/-- The alias key of this boot (R364). Its measurements are those of the boot, at which the Safelight configuration is that of a reset (R403). -/
def Service.aliasKey (v : Service) : Nat := aliasKeyOf ([1, 2, 3, 4].flatMap (v.measure State.reset.configBytes))
/-- What the alias certificate says, and the certificate, signed with the identity key. -/
def Service.aliasCert (v : Service) : List Byte :=
  let tbs := Config.aliasTbs (keyBytes (publicKey v.aliasKey))
  derCert tbs (signWith Config.identityKey 0 tbs)
/-- The certificate chain (R364). -/
def Service.certChain (v : Service) : List Byte := Config.caChain ++ v.aliasCert
/-- A message with its signature under the alias key. -/
def State.signed (s : State) (m : List Byte) : List Byte := m ++ signBytes (signWith s.svc.aliasKey s.tick m)
/-- GET_DIGESTS (R364, R366): the digest of the certificate chain. -/
def execGetDigests (s : State) : Out := .next (s.respond s.via 0x01 (sha384 s.svc.certChain))
/-- GET_CERTIFICATE (R364, R366): a part of the chain. -/
def execGetCertificate (off len : Nat) (s : State) : Out := .next (s.respond s.via 0x02 ((s.svc.certChain.drop off).take len))
/-- CHALLENGE (R364, R366): the measurements' digest and the nonce, signed with the alias key. -/
def execChallenge (nonce : List Byte) (s : State) : Out :=
  .next (s.respond s.via 0x03 (s.signed (sha384 ([1, 2, 3, 4, 5].flatMap s.measure) ++ nonce)))
/-- GET_MEASUREMENTS (R366): block `index`, or every block for 0xFF, signed with the alias key. -/
def execGetMeasurements (index : Nat) (nonce : List Byte) (s : State) : Out :=
  .next (
    let is := if index = 0xFF then [1, 2, 3, 4, 5] else if 1 ≤ index ∧ index ≤ 5 then [index] else []
    s.respond s.via 0x60 (s.signed (is.flatMap s.measure ++ nonce)))
/-- UNSUPPORTED_REQUEST (R366): the error response UnsupportedRequest names the request. -/
def execUnsupportedRequest (code : Byte) (s : State) : Out := .next (s.respond s.via 0x7F [0x07#8, code])
/-- PLDM_SENSOR_READ (R403). -/
def execPldmSensorRead (sensor : Nat) (s : State) : Out := .next (s.respond none 0x02 (natLE 4 (Config.sensor s.tick sensor).toNat))
/-- FRU_EEPROM_READ (R18): it answers with power and without. -/
def execFruEepromRead (off len : Nat) (s : State) : Out :=
  .next (s.send (.mgmt none 0 ((List.range len).map fun k => Config.fru (off + k))))

end Sys2Proof.Machine
end

