-- ==== Sys2Proof/Machine/Fetch.lean ====
section
/-!
DEFINITION. Instruction fetch (R198), suppressed words (R78, R79, R58) and the switched issue (R299).
-/
namespace Sys2Proof.Machine
open Sys2Proof

/-- The word at a PC as the issuing warp fetches it: what it decodes to, or why it is suppressed; none where its page is missing, with the
service request that the warp then waits for (R198). -/
def State.fetchAt (s : State) (act : Mask) (pc : DWord) : State × (Nat ⊕ Decoded) :=
  let tag := s.myTag
  let die := s.myDie
  let o := { s.here act pc with addr := some (pc, 0xFFF8#16) }
  let r := s.lookup (some (s.coreOf s.warp.ref.wg)) die tag 0 pc false
  match r.2 with
  | .fault .pageMiss =>
    let q := r.1.svcReq tag 0 pc o
    (q.1, .inl q.2)
  | .fault c => (r.1, .inr (.suppressed (.fetch c)))
  | .leaf t =>
    if !t.ex then (r.1, .inr (.suppressed (.fetch .protection)))
    else
      let pa := t.frame + pc.toNat % 65536
      let a := r.1.access die tag pa o t.mt
      match a.2 with
      | some tok => (a.1, .inr (.suppressed (.sector tok)))
      | none =>
        match a.1.wordAt die pa with
        | { bits := w, psn := true } => (a.1, .inr (.suppressed (.sector w)))
        | { bits := w, psn := false } => (a.1, .inr (decodeWord w))
/-- Fetch the next word of the issuing warp. -/
def State.fetch (s : State) : State :=
  match s.warp.group with
  | none => s
  | some (act, pc) =>
    if !s.warp.mayIssue || s.warp.fetchHold.isSome then s
    else
      let r := s.fetchAt act pc
      match r.2 with
      | .inl n => r.1.modFocus fun w => { w with fetchHold := some n, ir := none }
      | .inr d => r.1.modFocus fun w => { w with ir := some d }
/-- INSTRUCTION_FETCH (R198). -/
def execInstructionFetch (s : State) : Out := .next s.fetch
/-- Whether the request that a held fetch waits for is resolved. -/
def State.fetchServed (s : State) (w : Warp) : Bool := match w.fetchHold with
  | some n => (s.ctx ((s.wgOf w.ref.wg).getD default).tag).resolved n
  | none => false
/-- FETCH_RETRY (R198): after service the walk is repeated. -/
def execFetchRetry (s : State) : Out :=
  .next (if s.fetchServed s.warp then (s.modFocus fun w => { w with fetchHold := none }).fetch else s)

/-- SUPPRESSED_WORD (R78, R79, R58): the word at the issuing warp's PC has the effect of a suppressed word, or of a suppressed hint. -/
def execSuppressedWord (k : Suppression) (s : State) : Out :=
  .next (match s.warp.group with
    | none => s
    | some (act, pc) =>
      if !s.warp.mayIssue then s
      else if k = .hint then s.suppressHint act pc
      else s.suppressWord act pc k)

/-- The PC of the group that a switched issue chooses (R299). -/
def Warp.switchPc (w : Warp) : Option DWord :=
  (minPc w.livePcs).bind fun lo =>
    let high := w.livePcs.filter fun p => decide (lo.toNat < p.toNat)
    (minPc (high.filter fun p => decide (w.switchMark.toNat < p.toNat))) <|> minPc high
/-- SWITCHED_ISSUE (R299): another group issues next, its hint state discarded. -/
def execSwitchedIssue (s : State) : Out :=
  .next (if s.warp.mayIssue && s.warp.mustSwitch then
      match s.warp.switchPc with
      | none => s
      | some p => s.modFocus fun w => { w with switched := some (w.groupAt p), switchMark := p, hints := w.hints.discard }
    else s)

end Sys2Proof.Machine
end

