-- ==== Sys2Proof/Machine/FloatOps.lean ====
section
/-!
DEFINITION. FP32 and packed 16-bit arithmetic, comparison, conversion, narrow dot products and special functions (R138 to R156).
-/
namespace Sys2Proof.Machine
open Sys2Proof

/-- A delivered pattern as a result word. -/
def asWord (d : Delivered) : List Word × Flags := ([BitVec.ofNat 32 d.1], d.2)
/-- Source word `k` as a natural number. -/
def nat32 (ws : List Word) (k : Nat) : Nat := (ws.getD k 0#32).toNat

/-- A lane-wise FP32 instruction of two sources. -/
def State.fp2 (s : State) (i : Instr) (d a b : Code) (fn : FpEnv → Nat → Nat → Delivered) : State :=
  s.alu i (formT d a b) nomOther fun env _ ws => asWord (fn env (nat32 ws 0) (nat32 ws 1))
/-- A lane-wise FP32 instruction of one source. -/
def State.fp1 (s : State) (i : Instr) (d a : Code) (fn : FpEnv → Nat → Delivered) : State :=
  s.alu i (formU d a) nomOther fun env _ ws => asWord (fn env (nat32 ws 0))

/-- FADD (R139). -/
def execFadd (d a b : BitVec 8) (s : State) : Out := .next (s.fp2 (.fadd d a b) d a b (fAdd fp32))
/-- FSUB (R139). -/
def execFsub (d a b : BitVec 8) (s : State) : Out := .next (s.fp2 (.fsub d a b) d a b (fSub fp32))
/-- FMUL (R139). -/
def execFmul (d a b : BitVec 8) (s : State) : Out := .next (s.fp2 (.fmul d a b) d a b (fMul fp32))
/-- FMA.A (R139): the destination is the addend. -/
def execFmaA (d a b : BitVec 8) (s : State) : Out :=
  .next (s.alu (.fmaA d a b) { formT d a b with reads := [a, b, d], slotD := [d] } nomOther fun env _ ws =>
    asWord (fMa fp32 env (nat32 ws 0) (nat32 ws 1) (nat32 ws 2)))
/-- FMA.L (R139): l0 is the addend, fourth in source order. -/
def execFmaL (d a b : BitVec 8) (s : State) : Out :=
  .next (s.alu (.fmaL d a b) { formT d a b with reads := [a, b, 0xF8#8] } nomOther fun env _ ws =>
    asWord (fMa fp32 env (nat32 ws 0) (nat32 ws 1) (nat32 ws 2)))
/-- FMIN (R140). -/
def execFmin (d a b : BitVec 8) (s : State) : Out := .next (s.fp2 (.fmin d a b) d a b fun env x y => fMinMax false env.ftz x y)
/-- FMAX (R140). -/
def execFmax (d a b : BitVec 8) (s : State) : Out := .next (s.fp2 (.fmax d a b) d a b fun env x y => fMinMax true env.ftz x y)
/-- FCMP (R141): V = 1 is the signalling form. -/
def execFcmp (d a b : BitVec 8) (v : BitVec 1) (s : State) : Out :=
  .next (s.fp2 (.fcmp d a b v) d a b fun _ x y => fCmp (v == 1#1) x y)
/-- FCLASS (R142). -/
def execFclass (d a : BitVec 8) (s : State) : Out := .next (s.fp1 (.fclass d a) d a fun _ x => (fClass x, 0#6))
/-- FRND (R143). -/
def execFrnd (d a : BitVec 8) (s : State) : Out := .next (s.fp1 (.frnd d a) d a fun env x => fRnd env.rm x)
/-- FUNA.FABS (R144): a NaN gives the canonical NaN. -/
def execFunaFabs (d a : BitVec 8) (s : State) : Out :=
  .next (s.fp1 (.funaFabs d a) d a fun _ x => (if (fp32.decode x).isNaN then fp32.quietNaN else x % 2 ^ 31, 0#6))
/-- FUNA.FNEG (R144). -/
def execFunaFneg (d a : BitVec 8) (s : State) : Out :=
  .next (s.fp1 (.funaFneg d a) d a fun _ x =>
    (if (fp32.decode x).isNaN then fp32.quietNaN else (x + 2 ^ 31) % 2 ^ 32, 0#6))
/-- CVT (R145): FTZ never applies. -/
def execCvt (d a : BitVec 8) (t f : BitVec 4) (s : State) : Out :=
  .next (s.fp1 (.cvt d a t f) d a fun env x => convertFmt { env with ftz := false } t.toNat f.toNat x)

/-- A packed 16-bit instruction (R146): the function of each element, flags ORed. -/
def packed (v : BitVec 1) (fn : Fmt → Nat → Delivered) : List Word × Flags :=
  let f := if v = 0#1 then fp16 else bf16
  let lo := fn f 0
  let hi := fn f 1
  ([BitVec.ofNat 32 (lo.1 % 65536 + hi.1 % 65536 * 65536)], lo.2 ||| hi.2)
/-- Element `e` of 16 bits of source word `k`. -/
def half (ws : List Word) (k e : Nat) : Nat := nat32 ws k / 2 ^ (16 * e) % 65536
/-- HADD2 (R146). -/
def execHadd2 (d a b : BitVec 8) (v : BitVec 1) (s : State) : Out :=
  .next (s.alu (.hadd2 d a b v) (formT d a b) nomOther fun env _ ws => packed v fun f e => fAdd f env (half ws 0 e) (half ws 1 e))
/-- HMUL2 (R146). -/
def execHmul2 (d a b : BitVec 8) (v : BitVec 1) (s : State) : Out :=
  .next (s.alu (.hmul2 d a b v) (formT d a b) nomOther fun env _ ws => packed v fun f e => fMul f env (half ws 0 e) (half ws 1 e))
/-- HFMA2 (R146): the destination is the addend. -/
def execHfma2 (d a b : BitVec 8) (v : BitVec 1) (s : State) : Out :=
  .next (s.alu (.hfma2 d a b v) { formT d a b with reads := [a, b, d] } nomOther fun env _ ws =>
    packed v fun f e => fMa f env (half ws 0 e) (half ws 1 e) (half ws 2 e))

/-! ## Narrow dot products (R147 to R150) -/

/-- Element `e` of `w` bits of consecutive words (R104, R148). -/
def element (ws : List Word) (w e : Nat) : Nat :=
  let per := 32 / w
  nat32 ws (e / per) / 2 ^ (w * (e % per)) % 2 ^ w
/-- One lane of a dot product: n products of elements of format `f` and width `w`, scaled, added to the old accumulator as one
exact sum and rounded once (R113, R150). -/
def dotLane (env : FpEnv) (f : Fmt) (w n : Nat) (as bs : List Word) (acc : Nat) (k : Option Int) : Delivered :=
  let ps := (List.range n).map fun e => ((f.decode (element as w e)).mul (f.decode (element bs w e))).scale k
  fp32.deliver { env with ftz := false } (sumExact env.rm (fp32.decode acc :: ps))

/-- The drawer code of a DOT destination. -/
def drawerCode (d : BitVec 3) : Code := 0xF0#8 + d.setWidth 8
/-- DOT2 (R147, R150). -/
def execDot2 (d : BitVec 3) (a b : BitVec 8) (v : BitVec 1) (s : State) : Out :=
  let dst := drawerCode d
  .next (s.alu (.dot2 d a b v) { formT dst a b with reads := [a, b, dst] } nomOther fun env _ ws =>
    asWord (dotLane env (if v = 0#1 then fp16 else bf16) 16 2 [ws.getD 0 0#32] [ws.getD 1 0#32] (nat32 ws 2) (some 0)))

/-- DOT8 and DOT4 (R148 to R150): with V = 1 the a-scale and b-scale named by SCALE are sources, and a scaled DOT with no naming in
force is suppressed. -/
def State.dotQuad (s : State) (i : Instr) (sel : BitVec 2) (d : BitVec 3) (a b : Code) (v : BitVec 1) (f : Fmt) (w n : Nat) : State :=
  let dst := drawerCode d
  let scales : List Code := match s.warp.hints.scale with
    | some (sa, sb) => if v = 1#1 then [sa, sb] else []
    | none => []
  s.issue i { reads := quadCodes a ++ quadCodes b ++ [dst] ++ scales, slotA := quadCodes a, slotB := quadCodes b, dsts := [dst] }
    (v == 1#1 && s.warp.hints.scale.isNone) false fun s iss os =>
      let r := laneWise iss.act os 1 fun _ ws =>
        let byteOf (k : Nat) : Nat := nat32 ws k / 2 ^ (8 * sel.toNat) % 256
        let k : Option Int := if v = 0#1 then some 0
          else match x8 (byteOf 9), x8 (byteOf 10) with
            | some ka, some kb => some (ka + kb)
            | _, _ => none
        asWord (dotLane iss.env f w n (ws.take 4) ((ws.drop 4).take 4) (nat32 ws 8) k)
      (s.deliver iss.act iss.pc [dst] r.1 [nomOther os]).modFocus fun w => w.raiseFlags r.2
/-- DOT8 (R148 to R150). -/
def execDot8 (sl : BitVec 2) (d : BitVec 3) (a b : BitVec 8) (v : BitVec 1) (s : State) : Out :=
  .next (s.dotQuad (.dot8 sl d a b v) sl d a b v f8a 8 16)
/-- DOT4 (R148 to R150). -/
def execDot4 (sl : BitVec 2) (d : BitVec 3) (a b : BitVec 8) (v : BitVec 1) (s : State) : Out :=
  .next (s.dotQuad (.dot4 sl d a b v) sl d a b v f4 4 32)

/-! ## Special functions (R151 to R156) -/

/-- One source, in the special-function unit (R151). -/
def State.sfu1 (s : State) (i : Instr) (d a : Code) (fn : Nat → Nat × Flags) : State :=
  s.alu i (formU d a).slower nomOther fun _ _ ws => asWord (fn (nat32 ws 0))
/-- SFU.RCP (R151). -/
def execSfuRcp (d a : BitVec 8) (s : State) : Out := .next (s.sfu1 (.sfuRcp d a) d a fun x => sfuFn 0 (BitVec.ofNat 32 x))
/-- SFU.RSQ (R151). -/
def execSfuRsq (d a : BitVec 8) (s : State) : Out := .next (s.sfu1 (.sfuRsq d a) d a fun x => sfuFn 1 (BitVec.ofNat 32 x))
/-- SFU.SQRT (R151). -/
def execSfuSqrt (d a : BitVec 8) (s : State) : Out := .next (s.sfu1 (.sfuSqrt d a) d a fun x => sfuFn 2 (BitVec.ofNat 32 x))
/-- SFU.EXP2 (R151). -/
def execSfuExp2 (d a : BitVec 8) (s : State) : Out := .next (s.sfu1 (.sfuExp2 d a) d a fun x => sfuFn 3 (BitVec.ofNat 32 x))
/-- SFU.LOG2 (R151). -/
def execSfuLog2 (d a : BitVec 8) (s : State) : Out := .next (s.sfu1 (.sfuLog2 d a) d a fun x => sfuFn 4 (BitVec.ofNat 32 x))
/-- SFU.SINP (R151). -/
def execSfuSinp (d a : BitVec 8) (s : State) : Out := .next (s.sfu1 (.sfuSinp d a) d a fun x => sfuFn 5 (BitVec.ofNat 32 x))
/-- SFU.COSP (R151). -/
def execSfuCosp (d a : BitVec 8) (s : State) : Out := .next (s.sfu1 (.sfuCosp d a) d a fun x => sfuFn 6 (BitVec.ofNat 32 x))
/-- SFU.TANH (R151). -/
def execSfuTanh (d a : BitVec 8) (s : State) : Out := .next (s.sfu1 (.sfuTanh d a) d a fun x => sfuFn 7 (BitVec.ofNat 32 x))
/-- EXS (R153): the destination is the third source. -/
def execExs (d a b : BitVec 8) (s : State) : Out :=
  .next (s.alu (.exs d a b) { formT d a b with reads := [a, b, d], lat := 10 } nomOther fun _ _ ws =>
    asWord (exsFn (nat32 ws 0) (nat32 ws 1) (nat32 ws 2)))

/-- A pair result whose latch value is a third word, the correction factor (R155). -/
def State.pairWithFactor (s : State) (i : Instr) (f : Form) (fn : FpEnv → List Word → Nat × Nat × Nat × Flags) : State :=
  s.issue i f false false fun s iss os =>
    let r := laneWise iss.act os 3 fun _ ws =>
      let x := fn iss.env ws
      ([BitVec.ofNat 32 x.1, BitVec.ofNat 32 x.2.1, BitVec.ofNat 32 x.2.2.1], x.2.2.2)
    let nom := nomOther os
    let q := State.writeDsts iss.act iss.pc true f.dsts r.1 [nom, nom] s none
    (q.1.modFocus fun w => w.reserve (latchValue iss.act [r.1.getD 2 []] [nom] q.2)).modFocus fun w => w.raiseFlags r.2
/-- SMXA (R155): source order SA, SB, DST low, DST high. -/
def execSmxa (d a b : BitVec 8) (s : State) : Out :=
  .next (s.pairWithFactor (.smxa d a b) { reads := [a, b] ++ pairCodes d, slotA := [a], slotB := [b], dsts := pairCodes d, lat := 10 }
    fun env ws => smxaFn env (nat32 ws 2) (nat32 ws 3) (nat32 ws 0) (nat32 ws 1))
/-- SMXM (R156): source order SA low, SA high, DST low, DST high. -/
def execSmxm (d a : BitVec 8) (s : State) : Out :=
  .next (s.pairWithFactor (.smxm d a) { reads := pairCodes a ++ pairCodes d, slotA := pairCodes a, dsts := pairCodes d, lat := 10 }
    fun env ws => smxmFn env (nat32 ws 2) (nat32 ws 3) (nat32 ws 0) (nat32 ws 1))

end Sys2Proof.Machine
end

