-- ==== Sys2Proof/Machine/Hint.lean ====
section
/-!
DEFINITION. The hints (R58 to R64).
-/
namespace Sys2Proof.Machine
open Sys2Proof

/-- XIMM.L (R59). -/
def execXimmL (im : BitVec 16) (s : State) : Out :=
  .next (s.issueHint (.ximmL im) fun h => { h with xi := im.signExtend 32, xiValid := true, xiFresh := true })
/-- XIMM.H (R59). -/
def execXimmH (im : BitVec 16) (s : State) : Out :=
  .next (s.issueHint (.ximmH im) fun h =>
    { h with xi := im ++ (if h.xiValid then h.xi.setWidth 16 else 0#16), xiValid := true, xiFresh := true })
/-- LIFE (R60): a new one replaces the marks still pending. -/
def execLife (a : BitVec 8) (b : BitVec 16) (s : State) : Out :=
  .next (s.issueHint (.life a b) fun h => { h with life := a ++ b, lifePos := 0 })
/-- HOLD (R61): each position named is pinned for COUNT further instructions. -/
def execHold (c m : BitVec 3) (s : State) : Out :=
  .next (s.issueHint (.hold c m) fun h =>
    { h with pins := (List.range 3).map fun i => if m.getLsbD i then c.toNat else h.pins.getD i 0 })
/-- HOLD.REL (R61). -/
def execHoldRel (s : State) : Out := .next (s.issueHint .holdRel fun h => { h with pins := [0, 0, 0] })
/-- SCALE (R62): the a-scale code is in bits 7:0, the b-scale code in bits 15:8. -/
def execScale (b a : BitVec 8) (s : State) : Out := .next (s.issueHint (.scale b a) fun h => { h with scale := some (a, b) })
/-- MOD (R63): a second MOD before the target replaces the first. -/
def execMod (h a : BitVec 1) (b c : BitVec 4) (sc : BitVec 3) (t : BitVec 1) (r : BitVec 3) (s : State) : Out :=
  let m : ModF := { chv := h == 1#1, arr := a == 1#1, bid := b.toNat, chn := c.toNat, scope := sc.toNat, sat := t == 1#1, rm := r.toNat }
  .next (s.issueHint (.mod h a b c sc t r) fun x => { x with mod := some m })
/-- SCHED (R64). -/
def execSched (d : BitVec 4) (s : State) : Out := .next (s.issueHint (.sched d) fun h => { h with delay := d.toNat })
/-- SCHED.YP (R64): the next non-hint instruction becomes a deschedule point if it is a branch. -/
def execSchedYp (d : BitVec 4) (s : State) : Out :=
  .next (s.issueHint (.schedYp d) fun h => { h with delay := d.toNat, yp := true })

end Sys2Proof.Machine
end

