-- ==== Sys2Proof/Machine/Integer.lean ====
section
/-!
DEFINITION. Integer, logic, comparison and bit-field instructions (R119 to R127).
-/
namespace Sys2Proof.Machine
open Sys2Proof

/-- A lane-wise integer instruction of two sources with Res: clamped under SAT in the range of `v` (R119). Its shape class is
`nom` while SAT is clear and "every other" under SAT. -/
def State.resOp (s : State) (i : Instr) (f : Form) (v : BitVec 1) (nom : List Opd → Shape) (fn : List Word → Int) : State :=
  let sat := (s.warp.iss 0#32 0#64).env.sat
  s.alu i f (if sat then nomOther else nom) fun env _ ws =>
    let r := resInt env.sat v (fn ws)
    ([r.1], r.2)

/-- Class "scaling" of R47 for IMUL. -/
def nomMul (os : List Opd) : Shape :=
  match os.map Opd.shape with
  | [.u, .u] => .u
  | [.a, .u] => .a
  | [.u, .a] => .a
  | _ => .g
/-- Class "scaling" of R47 for ISHL: an A value shifted by a U count. -/
def nomShl (os : List Opd) : Shape :=
  match os.map Opd.shape with
  | [.u, .u] => .u
  | [.a, .u] => .a
  | _ => .g
/-- Class "scaling" with an immediate, which counts as U. -/
def nomScale1 (os : List Opd) : Shape :=
  match os.map Opd.shape with
  | [.u] => .u
  | [.a] => .a
  | _ => .g

/-- Word `k` of a lane's sources. -/
def src (ws : List Word) (k : Nat) : Word := ws.getD k 0#32

/-- IADD (R120). -/
def execIadd (d a b : BitVec 8) (v : BitVec 1) (s : State) : Out :=
  .next (s.resOp (.iadd d a b v) (formT d a b) v nomAdd fun ws => ext v (src ws 0) + ext v (src ws 1))
/-- ISUB (R120). -/
def execIsub (d a b : BitVec 8) (v : BitVec 1) (s : State) : Out :=
  .next (s.resOp (.isub d a b v) (formT d a b) v nomAdd fun ws => ext v (src ws 0) - ext v (src ws 1))
/-- IMUL (R120). -/
def execImul (d a b : BitVec 8) (v : BitVec 1) (s : State) : Out :=
  .next (s.resOp (.imul d a b v) (formT d a b) v nomMul fun ws => ext v (src ws 0) * ext v (src ws 1))
/-- IMULH (R120): bits 63:32 of the product. -/
def execImulh (d a b : BitVec 8) (v : BitVec 1) (s : State) : Out :=
  .next (s.alu2 (.imulh d a b v) d a b nomOther fun x y => trunc32 (ext v x * ext v y / 2 ^ 32))
/-- IMAC (R120): the destination is the third source. -/
def execImac (d a b : BitVec 8) (v : BitVec 1) (s : State) : Out :=
  .next (s.resOp (.imac d a b v) { formT d a b with reads := [a, b, d], slotD := [d] } v nomOther fun ws =>
    ext v (src ws 2) + ext v (src ws 0) * ext v (src ws 1))
/-- IADDC.CO (R121). -/
def execIaddcCo (d a b : BitVec 8) (s : State) : Out :=
  .next (s.alu2 (.iaddcCo d a b) d a b nomOther fun x y => if 2 ^ 32 ≤ x.toNat + y.toNat then 1#32 else 0#32)
/-- IADDC.CI (R121): bit 0 of the destination is the carry in. -/
def execIaddcCi (d a b : BitVec 8) (s : State) : Out :=
  .next (s.alu (.iaddcCi d a b) { formT d a b with reads := [a, b, d] } nomOther fun _ _ ws =>
    ([src ws 0 + src ws 1 + (src ws 2 &&& 1#32)], 0#6))
/-- LEA (R122): the low word takes the additive class of SA low and SB, the high word "every other" over all three. -/
def execLea (d a b : BitVec 8) (v : BitVec 1) (s : State) : Out :=
  .next (s.issue (.lea d a b v) { reads := pairCodes a ++ [b], slotA := pairCodes a, slotB := [b], dsts := pairCodes d } false false
    fun s iss os =>
      let r := laneWise iss.act os 2 fun _ ws =>
        let t := joinWords (src ws 0) (src ws 1) + BitVec.ofInt 64 (ext v (src ws 2))
        ([lowWord t, highWord t], 0#6)
      s.deliver iss.act iss.pc (pairCodes d) r.1 [nomAdd [os.getD 0 default, os.getD 2 default], nomOther os])
/-- IADDI (R120): SAT clamps to the signed range. -/
def execIaddi (d a : BitVec 8) (im : BitVec 9) (s : State) : Out :=
  .next (s.resOp (.iaddi d a im) (formU d a) 0#1 nomAdd fun ws => (src ws 0).toInt + im.toInt)

/-- ISHL of a value by a count (R123). -/
def shlWord (x : Word) (c : Nat) : Word := if c < 32 then x <<< c else 0#32
/-- ISHR.S (R123). -/
def sarWord (x : Word) (c : Nat) : Word := if c < 32 then x.sshiftRight c else if x.msb then 0xFFFFFFFF#32 else 0#32
/-- ISHR.N (R123). -/
def shrWord (x : Word) (c : Nat) : Word := if c < 32 then x >>> c else 0#32

/-- ISHL (R123). -/
def execIshl (d a b : BitVec 8) (s : State) : Out :=
  .next (s.alu2 (.ishl d a b) d a b nomShl fun x y => shlWord x y.toNat)
/-- ISHR (R123). -/
def execIshr (d a b : BitVec 8) (v : BitVec 1) (s : State) : Out :=
  .next (s.alu2 (.ishr d a b v) d a b nomOther fun x y => if v = 0#1 then sarWord x y.toNat else shrWord x y.toNat)
/-- AND (R124). -/
def execAnd (d a b : BitVec 8) (s : State) : Out := .next (s.alu2 (.and d a b) d a b nomOther fun x y => x &&& y)
/-- OR (R124). -/
def execOr (d a b : BitVec 8) (s : State) : Out := .next (s.alu2 (.or d a b) d a b nomOther fun x y => x ||| y)
/-- XOR (R124). -/
def execXor (d a b : BitVec 8) (s : State) : Out := .next (s.alu2 (.xor d a b) d a b nomOther fun x y => x ^^^ y)
/-- ANDN (R124). -/
def execAndn (d a b : BitVec 8) (s : State) : Out := .next (s.alu2 (.andn d a b) d a b nomOther fun x y => x &&& ~~~y)
/-- The logic function of LOGI (R124): 0 AND, 1 OR, 2 XOR, 3 ANDN. -/
def logic (f : BitVec 2) (x y : Word) : Word :=
  if f = 0#2 then x &&& y else if f = 1#2 then x ||| y else if f = 2#2 then x ^^^ y else x &&& ~~~y
/-- LOGI (R124). -/
def execLogi (d a : BitVec 8) (f : BitVec 2) (im : BitVec 7) (s : State) : Out :=
  .next (s.alu1 (.logi d a f im) d a nomOther fun x => logic f x (im.setWidth 32))
/-- SHI (R123): 0 SHL, 1 SHR.S, 2 SHR.N, 3 ROR. -/
def execShi (d a : BitVec 8) (k : BitVec 2) (n : BitVec 5) (s : State) : Out :=
  .next (s.alu1 (.shi d a k n) d a (if k = 0#2 then nomScale1 else nomOther) fun x =>
    if k = 0#2 then shlWord x n.toNat else if k = 1#2 then sarWord x n.toNat else if k = 2#2 then shrWord x n.toNat
    else x.rotateRight n.toNat)

/-- IMIN (R125). -/
def execImin (d a b : BitVec 8) (v : BitVec 1) (s : State) : Out :=
  .next (s.alu2 (.imin d a b v) d a b nomOther fun x y => if ext v x ≤ ext v y then x else y)
/-- IMAX (R125). -/
def execImax (d a b : BitVec 8) (v : BitVec 1) (s : State) : Out :=
  .next (s.alu2 (.imax d a b v) d a b nomOther fun x y => if ext v y ≤ ext v x then x else y)
/-- ICMP (R125). -/
def execIcmp (d a b : BitVec 8) (v : BitVec 1) (s : State) : Out :=
  .next (s.alu2 (.icmp d a b v) d a b nomOther fun x y =>
    if ext v x < ext v y then 1#32 else if ext v x = ext v y then 2#32 else 4#32)
/-- SEL of one lane (R125): a clean condition makes the lane depend on the selected source alone; a poisoned one on all three in
the order SA, SB, condition. -/
def selLane (vs : List Val) : Val :=
  let a := vs.getD 0 Val.zero
  let b := vs.getD 1 Val.zero
  let c := vs.getD 2 Val.zero
  if c.psn then (if a.psn then a else if b.psn then b else c)
  else if c.bits ≠ 0#32 then a else b
/-- SEL (R125): the destination is read as the condition. -/
def execSel (d a b : BitVec 8) (s : State) : Out :=
  .next (s.aluVals (.sel d a b) { formT d a b with reads := [a, b, d] } nomOther fun _ vs => selLane vs)

/-- The effective width and position of BFE and BFI (R126). -/
def fieldOf (y : Word) : Nat × Nat :=
  let pos := y.toNat % 32
  (pos, min (y.toNat / 256 % 64) (32 - pos))
/-- BFE (R126). -/
def execBfe (d a b : BitVec 8) (v : BitVec 1) (s : State) : Out :=
  .next (s.alu2 (.bfe d a b v) d a b nomOther fun x y =>
    let f := fieldOf y
    let z := x.toNat / 2 ^ f.1 % 2 ^ f.2
    if f.2 = 0 then 0#32 else if v = 0#1 then BitVec.ofInt 32 (intOf f.2 true z) else BitVec.ofNat 32 z)
/-- BFI (R126): the destination is the third source. -/
def execBfi (d a b : BitVec 8) (s : State) : Out :=
  .next (s.alu (.bfi d a b) { formT d a b with reads := [a, b, d] } nomOther fun _ _ ws =>
    let f := fieldOf (src ws 1)
    let mask := BitVec.ofNat 32 ((2 ^ f.2 - 1) * 2 ^ f.1)
    ([(src ws 2 &&& ~~~mask) ||| ((src ws 0 <<< f.1) &&& mask)], 0#6))

/-- The number of 1 bits. -/
def popCount (x : Word) : Nat := ((List.range 32).filter fun i => x.getLsbD i).length
/-- The number of leading 0 bits. -/
def leadingZeros (x : Word) : Nat := ((List.range 32).find? fun i => x.getLsbD (31 - i)).getD 32
/-- Bit i moved to bit 31 − i. -/
def reverseBits (x : Word) : Word := maskOf fun i => x.getLsbD (31 - i)

/-- IUNA.POPC (R127). -/
def execIunaPopc (d a : BitVec 8) (s : State) : Out :=
  .next (s.alu1 (.iunaPopc d a) d a nomOther fun x => BitVec.ofNat 32 (popCount x))
/-- IUNA.CLZ (R127). -/
def execIunaClz (d a : BitVec 8) (s : State) : Out :=
  .next (s.alu1 (.iunaClz d a) d a nomOther fun x => BitVec.ofNat 32 (leadingZeros x))
/-- IUNA.BREV (R127). -/
def execIunaBrev (d a : BitVec 8) (s : State) : Out := .next (s.alu1 (.iunaBrev d a) d a nomOther reverseBits)
/-- IUNA.IABS (R127): SAT clamps to the signed range. -/
def execIunaIabs (d a : BitVec 8) (s : State) : Out :=
  .next (s.resOp (.iunaIabs d a) (formU d a) 0#1 nomOther fun ws => ((src ws 0).toInt.natAbs : Int))
/-- IUNA.INEG (R127): with SAT clear it takes the scaling class. -/
def execIunaIneg (d a : BitVec 8) (s : State) : Out :=
  .next (s.resOp (.iunaIneg d a) (formU d a) 0#1 nomScale1 fun ws => -(src ws 0).toInt)

end Sys2Proof.Machine
end

