-- ==== Sys2Proof/Machine/Lane.lean ====
section
/-!
DEFINITION. Lane-exchange instructions: TILE, LGET, POLL, WRED, WREDF, SCAN, KEYM and HEAD (R115, R116, R118, R128 to R136).
-/
namespace Sys2Proof.Machine
open Sys2Proof

/-- The first lane of the tile of size `t` that holds lane `l` (R26). -/
def tileBase (t l : Nat) : Nat := l - l % t
/-- The active lanes of the tile that holds lane `l`, in increasing order. -/
def tileLanes (act : Mask) (t l : Nat) : List Nat :=
  (List.range t).filterMap fun k => if act.has (tileBase t l + k) then some (tileBase t l + k) else none
/-- Nominal shape of a result that is the same across a tile (R128). -/
def nomTile (t : Nat) : Shape := if t = 32 then .u else .g

/-- TILE (R129). It acts on the whole warp. -/
def execTile (sl : BitVec 9) (s : State) : Out :=
  .next (s.issue (.tile sl) { reads := [] } false false fun s _ _ => s.modFocus fun w => { w with tsize := 2 ^ sl.toNat })

/-- A reduction, poll or key mask: each active lane's result depends on every active lane of its tile, and the token of the
lowest poisoned one is the result of all (R128). `fn` has the lane, the tile's active lanes and their clean values. -/
def State.tileOp (s : State) (i : Instr) (f : Form) (nom : Nat → Shape)
    (fn : FpEnv → Nat → List (Nat × Word) → Word × Flags) : State :=
  s.issue i f false false fun s iss os =>
    let t := s.warp.tsize
    let x := os.getD 0 default
    let rs : List (Val × Flags) := lanes32 fun l =>
      if iss.act.has l then
        let ls := tileLanes iss.act t l
        match ls.find? fun k => (laneOf x.lanes k).psn with
        | some k => (laneOf x.lanes k, 0#6)
        | none =>
          let r := fn iss.env l (ls.map fun k => (k, (laneOf x.lanes k).bits))
          (Val.clean r.1, r.2)
      else (Val.zero, 0#6)
    (s.deliver iss.act iss.pc f.dsts [rs.map Prod.fst] [nom t]).modFocus fun w =>
      w.raiseFlags (rs.foldl (fun a r => a ||| r.2) 0#6)

/-- The lane of the tile that LGET names (R130). -/
def lgetLane (rot : Bool) (t l : Nat) (x : Word) : Nat :=
  let b := tileBase t l
  if rot then b + (l - b + x.toNat) % t else b + x.toNat % t

/-- What the source of LGET holds in the lanes that are named: its values and shape, and the lanes whose read is stale (R130). -/
def Warp.rawSource (w : Warp) (c : Code) : Opd × Mask :=
  if isCab c then
    let r := w.cab.getD c.toNat Reg.fresh
    ({ lanes := r.lanes, shape := r.shape }, fullMask)
  else if isDrawer c then
    let x := w.drawer.getD (c.toNat - 0xF0) Slot.fresh
    ({ lanes := x.lanes, shape := x.shape }, x.valid)
  else if isLatch c then
    let x := w.latch.getD (c.toNat - 0xF8) Slot.fresh
    ({ lanes := x.lanes, shape := x.shape }, x.valid)
  else if c = 0xFC#8 then ({ lanes := lanes32 fun l => Val.clean (BitVec.ofNat 32 l), shape := .a }, fullMask)
  else if c = 0xFD#8 then ({ lanes := splat (Val.clean w.hints.xi), shape := .u }, if w.hints.xiValid then fullMask else 0#32)
  else ({ lanes := splat Val.zero, shape := .u }, fullMask)

/-- LGET (R130): SB is read first; SA is read in the lanes that clean indices name, active or not. -/
def State.lget (s : State) (i : Instr) (d a b : Code) (rot : Bool) : State :=
  let w0 := s.warp
  s.issue i { reads := [b], slotA := [a], slotB := [b], dsts := [d], late := [a] } false false fun s iss os =>
    let t := s.warp.tsize
    let x := os.getD 0 default
    let named := maskOf fun l => iss.act.has l && !(laneOf x.lanes l).psn
    let from' (l : Nat) : Nat := lgetLane rot t l (laneOf x.lanes l).bits
    -- the lanes that are read, which an error in them settles (R396)
    let s := s.settleWords (maskOf fun k => ((List.range 32).any fun l => named.has l && from' l == k)) iss.pc [] [a]
    let raw := (((s.warp.rawSource a).1), (w0.rawSource a).2)
    let illegal := isCab a && decide (w0.n ≤ a.toNat)
    let dead := isCab a && (w0.cab.getD a.toNat Reg.fresh).dead
    let bad := if illegal || dead then named else maskOf fun l => named.has l && !raw.2.has (from' l)
    let r : State × Word :=
      if bad = 0#32 then (s, 0#32)
      else s.mkToken s.myTag (if illegal then .illegalOperand else if dead then .deadRead else .staleOperand) (s.here bad iss.pc)
    let vs := lanes32 fun l =>
      if !named.has l then laneOf x.lanes l
      else if bad.has l then Val.poison r.2
      else laneOf raw.1.lanes (from' l)
    r.1.deliver iss.act iss.pc [d] [vs] [if raw.1.shape = .u ∨ illegal then .u else .g]
/-- LGET.IDX (R130). -/
def execLgetIdx (d a b : BitVec 8) (s : State) : Out := .next (s.lget (.lgetIdx d a b) d a b false)
/-- LGET.ROT (R130). -/
def execLgetRot (d a b : BitVec 8) (s : State) : Out := .next (s.lget (.lgetRot d a b) d a b true)

/-- A condition as a word. -/
def bool32 (c : Bool) : Word := if c then 1#32 else 0#32
/-- POLL.EVERY (R131). -/
def execPollEvery (d a : BitVec 8) (s : State) : Out :=
  .next (s.tileOp (.pollEvery d a) (formU d a) nomTile fun _ _ xs => (bool32 (xs.all fun x => x.2 != 0#32), 0#6))
/-- POLL.SOME (R131). -/
def execPollSome (d a : BitVec 8) (s : State) : Out :=
  .next (s.tileOp (.pollSome d a) (formU d a) nomTile fun _ _ xs => (bool32 (xs.any fun x => x.2 != 0#32), 0#6))
/-- POLL.MASK (R131). -/
def execPollMask (d a : BitVec 8) (s : State) : Out :=
  .next (s.tileOp (.pollMask d a) (formU d a) nomTile fun _ _ xs =>
    (maskOf fun k => xs.any fun x => x.1 == k && x.2 != 0#32, 0#6))
/-- POLL.SAME (R131). -/
def execPollSame (d a : BitVec 8) (s : State) : Out :=
  .next (s.tileOp (.pollSame d a) (formU d a) nomTile fun _ _ xs =>
    (bool32 (xs.all fun x => x.2 == (xs.headD (0, 0#32)).2), 0#6))
/-- POLL.COUNT (R131). -/
def execPollCount (d a : BitVec 8) (s : State) : Out :=
  .next (s.tileOp (.pollCount d a) (formU d a) nomTile fun _ _ xs =>
    (BitVec.ofNat 32 (xs.filter fun x => x.2 != 0#32).length, 0#6))

/-- Fold the values of a tile with an operation that needs no order (R132). -/
def foldTile (f : Word → Word → Word) (xs : List (Nat × Word)) : Word :=
  match xs with
  | [] => 0#32
  | x :: r => r.foldl (fun a y => f a y.2) x.2
/-- The lesser under V. -/
def iminWord (v : BitVec 1) (x y : Word) : Word := if ext v x ≤ ext v y then x else y
/-- The greater under V. -/
def imaxWord (v : BitVec 1) (x y : Word) : Word := if ext v y ≤ ext v x then x else y

/-- WRED.ADD (R132). -/
def execWredAdd (d a : BitVec 8) (s : State) : Out :=
  .next (s.tileOp (.wredAdd d a) (formU d a).slow nomTile fun _ _ xs => (foldTile (· + ·) xs, 0#6))
/-- WRED.MIN (R132). -/
def execWredMin (d a : BitVec 8) (v : BitVec 1) (s : State) : Out :=
  .next (s.tileOp (.wredMin d a v) (formU d a).slow nomTile fun _ _ xs => (foldTile (iminWord v) xs, 0#6))
/-- WRED.MAX (R132). -/
def execWredMax (d a : BitVec 8) (v : BitVec 1) (s : State) : Out :=
  .next (s.tileOp (.wredMax d a v) (formU d a).slow nomTile fun _ _ xs => (foldTile (imaxWord v) xs, 0#6))
/-- WRED.AND (R132). -/
def execWredAnd (d a : BitVec 8) (s : State) : Out :=
  .next (s.tileOp (.wredAnd d a) (formU d a).slow nomTile fun _ _ xs => (foldTile (· &&& ·) xs, 0#6))
/-- WRED.OR (R132). -/
def execWredOr (d a : BitVec 8) (s : State) : Out :=
  .next (s.tileOp (.wredOr d a) (formU d a).slow nomTile fun _ _ xs => (foldTile (· ||| ·) xs, 0#6))
/-- WRED.XOR (R132). -/
def execWredXor (d a : BitVec 8) (s : State) : Out :=
  .next (s.tileOp (.wredXor d a) (formU d a).slow nomTile fun _ _ xs => (foldTile (· ^^^ ·) xs, 0#6))

/-- A value and the flags its nodes raised, or Absent (R115, R116). -/
abbrev Node := Option (Word × Flags)
/-- A node of a tree: Absent is neutral (R115). -/
def nodeOp (f : Word → Word → Word × Flags) (x y : Node) : Node :=
  match x, y with
  | some a, some b => let r := f a.1 b.1; some (r.1, a.2 ||| b.2 ||| r.2)
  | some a, none => some a
  | none, y => y
/-- One level of the pairwise tree of R115: neighbours are joined, the lower lane on the left. -/
def pairUp (f : Word → Word → Word × Flags) : List Node → List Node
  | a :: b :: r => nodeOp f a b :: pairUp f r
  | l => l
/-- The tree of R115 over a tile of 2^k lanes. -/
def treeFold (f : Word → Word → Word × Flags) : Nat → List Node → Node
  | 0, l => l.headD none
  | k + 1, l => treeFold f k (pairUp f l)

/-- FP32 FADD of patterns. -/
def faddWord (env : FpEnv) (x y : Word) : Word × Flags :=
  let r := fAdd fp32 env x.toNat y.toNat
  (BitVec.ofNat 32 r.1, r.2)
/-- FP32 FMIN or FMAX of patterns. -/
def fmmWord (mx : Bool) (env : FpEnv) (x y : Word) : Word × Flags :=
  let r := fMinMax mx env.ftz x.toNat y.toNat
  (BitVec.ofNat 32 r.1, r.2)

/-- An FP32 source of a tree as it is read: a subnormal is flushed under FTZ (R111), and a NaN stands as the canonical NaN, a signalling one
with NV (R102, R112), whether or not an operation of the tree meets it (log 53). -/
def fpLeaf (env : FpEnv) (x : Word) : Word × Flags :=
  match fp32.decode x.toNat with
  | .nan s => (BitVec.ofNat 32 fp32.quietNaN, flIf s flNV)
  | _ => (BitVec.ofNat 32 (fp32.flush env.ftz x.toNat), 0#6)
/-- An integer source of a scan. -/
def intLeaf (_ : FpEnv) (x : Word) : Word × Flags := (x, 0#6)

/-- WREDF: the tree over the tile, Absent where a lane is not active (R115, R133). It reads no SAT (R128). -/
def State.wredf (s : State) (i : Instr) (d a : Code) (f : FpEnv → Word → Word → Word × Flags) : State :=
  let t := s.warp.tsize
  s.tileOp i (formU d a).slow nomTile fun env l xs =>
    let nodes := (List.range t).map fun k => (xs.find? fun x => x.1 == tileBase t l + k).map fun x => fpLeaf env x.2
    ((treeFold (f { env with sat := false }) 5 nodes).getD (0#32, 0#6))
/-- WREDF.FADD (R133). -/
def execWredfFadd (d a : BitVec 8) (s : State) : Out := .next (s.wredf (.wredfFadd d a) d a faddWord)
/-- WREDF.FMIN (R133). -/
def execWredfFmin (d a : BitVec 8) (s : State) : Out := .next (s.wredf (.wredfFmin d a) d a (fmmWord false))
/-- WREDF.FMAX (R133). -/
def execWredfFmax (d a : BitVec 8) (s : State) : Out := .next (s.wredf (.wredfFmax d a) d a (fmmWord true))

/-- One round of the doubling of R116. -/
def scanRound (f : Word → Word → Word × Flags) (xs : List Node) (j : Nat) : List Node :=
  (List.range xs.length).map fun i => if 2 ^ j ≤ i then nodeOp f (xs.getD (i - 2 ^ j) none) (xs.getD i none) else xs.getD i none
/-- The inclusive prefixes of a tile of 2^k lanes (R116). -/
def scanTile (f : Word → Word → Word × Flags) (xs : List Node) : List Node :=
  (List.range 5).foldl (fun xs j => if 2 ^ j < xs.length then scanRound f xs j else xs) xs

/-- SCAN (R116, R118, R134): V = 1 is the exclusive form. The result of a lane takes the token of the lowest poisoned active lane
that contributes to it. -/
def State.scan (s : State) (i : Instr) (d a : Code) (v : BitVec 1) (ident : Word) (f : FpEnv → Word → Word → Word × Flags)
    (leaf : FpEnv → Word → Word × Flags := intLeaf) : State :=
  s.issue i (formU d a).slow false false fun s iss os =>
    let t := s.warp.tsize
    let x := os.getD 0 default
    let at' (l : Nat) : Node :=
      if iss.act.has l then let y := laneOf x.lanes l; some (if y.psn then (0#32, 0#6) else leaf iss.env y.bits) else none
    let rs : List (Val × Flags) := lanes32 fun l =>
      if !iss.act.has l then (Val.zero, 0#6)
      else
        let b := tileBase t l
        let incl := scanTile (f { iss.env with sat := false }) ((List.range t).map fun k => at' (b + k))
        let poisonBelow (n : Nat) := (List.range n).find? fun k => iss.act.has (b + k) && (laneOf x.lanes (b + k)).psn
        -- the lane's own node contributes its flags where it is clean (R112), though the exclusive form delivers another's result
        let own : Flags := if (poisonBelow (l - b + 1)).isSome then 0#6 else ((incl.getD (l - b) none).map Prod.snd).getD 0#6
        -- the result delivered is that of index n - 1
        let n := l - b + (if v = 0#1 then 1 else 0)
        match poisonBelow n with
        | some k => (laneOf x.lanes (b + k), own)
        | none =>
          if n = 0 then (Val.clean ident, own)
          else match incl.getD (n - 1) none with
            | some r => (Val.clean r.1, r.2 ||| own)
            | none => (Val.clean ident, own)
    (s.deliver iss.act iss.pc [d] [rs.map Prod.fst] [.g]).modFocus fun w =>
      w.raiseFlags (rs.foldl (fun a r => a ||| r.2) 0#6)
/-- An operation that raises no flag. -/
def quiet (f : Word → Word → Word) (_ : FpEnv) (x y : Word) : Word × Flags := (f x y, 0#6)
/-- SCAN.IADD (R134). -/
def execScanIadd (d a : BitVec 8) (v : BitVec 1) (s : State) : Out := .next (s.scan (.scanIadd d a v) d a v 0#32 (quiet (· + ·)))
/-- SCAN.FADD (R134). -/
def execScanFadd (d a : BitVec 8) (v : BitVec 1) (s : State) : Out := .next (s.scan (.scanFadd d a v) d a v 0#32 faddWord fpLeaf)
/-- SCAN.IMAX.S (R134). -/
def execScanImaxS (d a : BitVec 8) (v : BitVec 1) (s : State) : Out :=
  .next (s.scan (.scanImaxS d a v) d a v 0x80000000#32 (quiet (imaxWord 0#1)))
/-- SCAN.IMAX.N (R134). -/
def execScanImaxN (d a : BitVec 8) (v : BitVec 1) (s : State) : Out :=
  .next (s.scan (.scanImaxN d a v) d a v 0#32 (quiet (imaxWord 1#1)))
/-- SCAN.IMIN.S (R134). -/
def execScanIminS (d a : BitVec 8) (v : BitVec 1) (s : State) : Out :=
  .next (s.scan (.scanIminS d a v) d a v 0x7FFFFFFF#32 (quiet (iminWord 0#1)))
/-- SCAN.IMIN.N (R134). -/
def execScanIminN (d a : BitVec 8) (v : BitVec 1) (s : State) : Out :=
  .next (s.scan (.scanIminN d a v) d a v 0xFFFFFFFF#32 (quiet (iminWord 1#1)))
/-- SCAN.OR (R134). -/
def execScanOr (d a : BitVec 8) (v : BitVec 1) (s : State) : Out := .next (s.scan (.scanOr d a v) d a v 0#32 (quiet (· ||| ·)))

/-- Whether two keys are equal: by pattern, or under .F by FP32 value with all NaNs equal (R135). -/
def sameKey (f : BitVec 1) (x y : Word) : Bool :=
  if f = 0#1 then x == y
  else
    let nx := (fp32.decode x.toNat).isNaN
    let ny := (fp32.decode y.toNat).isNaN
    if nx || ny then nx && ny else fOrder x.toNat y.toNat == 0
/-- KEYM.PEER (R135). -/
def execKeymPeer (d a : BitVec 8) (f : BitVec 1) (s : State) : Out :=
  .next (s.tileOp (.keymPeer d a f) (formU d a).slow (fun _ => .g) fun _ l xs =>
    let mine := ((xs.find? fun x => x.1 == l).map Prod.snd).getD 0#32
    (maskOf fun k => xs.any fun x => x.1 == k && sameKey f x.2 mine, 0#6))
/-- KEYM.WHOLE (R135). -/
def execKeymWhole (d a : BitVec 8) (f : BitVec 1) (s : State) : Out :=
  .next (s.tileOp (.keymWhole d a f) (formU d a).slow nomTile fun _ _ xs =>
    (if xs.all fun x => sameKey f x.2 (xs.headD (0, 0#32)).2 then maskOf fun k => xs.any fun x => x.1 == k else 0#32, 0#6))

/-- HEAD: no source; the head of a tile is its lowest active lane (R136). -/
def State.headOp (s : State) (i : Instr) (d : Code) (nom : Nat → Shape) (fn : Nat → Nat → Word) : State :=
  s.issue i { reads := [], dsts := [d] } false false fun s iss _ =>
    let t := s.warp.tsize
    s.deliver iss.act iss.pc [d] [lanes32 fun l => Val.clean (fn l ((tileLanes iss.act t l).headD l))] [nom t]
/-- HEAD.FLAG (R136). -/
def execHeadFlag (d : BitVec 8) (s : State) : Out := .next (s.headOp (.headFlag d) d (fun _ => .g) fun l h => bool32 (l == h))
/-- HEAD.NUM (R136). -/
def execHeadNum (d : BitVec 8) (s : State) : Out := .next (s.headOp (.headNum d) d nomTile fun _ h => BitVec.ofNat 32 h)

end Sys2Proof.Machine
end

