-- ==== Sys2Proof/Machine/Register.lean ====
section
/-!
DEFINITION. Register instructions: MOV, MOVI, MOVG, SHAPE, SPILL and RELOAD (R65 to R68), SGET and SSET (R41 to R43, R69, R70).
-/
namespace Sys2Proof.Machine
open Sys2Proof

/-- MOV (R65): class Copy. -/
def execMov (d a : BitVec 8) (s : State) : Out :=
  .next (s.alu1 (.mov d a) d a (fun os => (os.getD 0 default).shape) id)
/-- MOVG (R65): the result is G. -/
def execMovg (d a : BitVec 8) (s : State) : Out := .next (s.alu1 (.movg d a) d a (fun _ => .g) id)
/-- MOVI (R66). -/
def execMovi (d : BitVec 8) (im : BitVec 17) (s : State) : Out :=
  .next (s.alu (.movi d im) { reads := [], dsts := [d] } nomOther fun _ _ _ => ([im.signExtend 32], 0#6))

/-- The shape code of R46, R65 and R71. -/
def Shape.code : Shape → Nat
  | .u => 0 | .a => 1 | .g => 2

/-- Info of R65: shape, dead, a valid bit clear, a lane poisoned. -/
def Warp.info (w : Warp) (c : Code) : Word :=
  let word (pois inval dead : Bool) (sh : Shape) : Word :=
    BitVec.ofNat 32 ((if pois then 16 else 0) + (if inval then 8 else 0) + (if dead then 4 else 0) + sh.code)
  let slot (x : Slot) : Word :=
    word ((List.range 32).any fun l => x.valid.has l && (laneOf x.lanes l).psn) (x.valid != fullMask) false x.shape
  if isCab c then
    if c.toNat < w.n then
      let r := w.cab.getD c.toNat Reg.fresh
      word (r.lanes.any Val.psn) false r.dead r.shape
    else 0x10#32
  else if isDrawer c then slot (w.drawer.getD (c.toNat - 0xF0) Slot.fresh)
  else if isLatch c then slot (w.latch.getD (c.toNat - 0xF8) Slot.fresh)
  else if c = 0xFC#8 then word false false false .a
  else if c = 0xFD#8 then word false (!w.hints.xiValid) false .u
  else word false false false .u
/-- SHAPE (R65): SA is inspected and not read; an outstanding write to a register or drawer entry is waited for, and a latch position
whose result has not reached it is reported invalid, with a shape that the rule leaves open (log 56). -/
def execShape (d a : BitVec 8) (s : State) : Out :=
  let w0 := s.warp
  let x := w0.latch.getD (a.toNat - 0xF8) Slot.fresh
  let early := isLatch a && (x.pend.isSome || decide (s.ctr s.myDie < x.due))
  .next (s.issue (.shape d a) { reads := [], dsts := [d], late := if isLatch a then [] else [a] } false false fun s iss _ =>
    s.deliver iss.act iss.pc [d] [splat (Val.clean (if early then BitVec.ofNat 32 (8 + Config.reservedShape s.tick % 3) else w0.info a))] [.u])

/-! ## Spill slots (R67, R68) -/

/-- No spill area is declared (R68). -/
def Warp.noSpill (w : Warp) : Bool := w.spw == 0xFFFFFFFF
/-- The private word index of a spill slot (R67). -/
def Warp.spillWord (w : Warp) (slot : Nat) : Nat := w.spw + slot
/-- The private offset of a spill slot (R67). -/
def Warp.spillOff (w : Warp) (slot : Nat) : DWord := BitVec.ofNat 64 (4 * w.spillWord slot)

/-- Where the line of a spill slot leads: its physical address, or a row of R215 (R203, R195). -/
def State.spillLine (s : State) (slot : Nat) (write : Bool) : State × Way :=
  if s.warp.privw ≤ s.warp.spillWord slot then (s, .fault .stackLimit 1 (s.warp.spillOff slot))
  else State.mapPieces (some (s.coreOf s.warp.ref.wg)) s.myDie s.myTag s.warp.privBase write [(s.warp.spillWord slot * 128, 128)] s []

/-- The packing code of a SPILL (R68). -/
def spillCode (act : Mask) (x : Opd) : Nat :=
  let sh := x.shape
  if act ≠ fullMask then 3
  else if x.lanes.any Val.psn && sh == .g then 3
  else if sh = .u then 0
  else if sh = .a then 1
  else if x.lanes.all fun v => decide (-(2 ^ 15) ≤ v.bits.toInt) && decide (v.bits.toInt < 2 ^ 15) then 2
  else 3
/-- The bytes that a SPILL writes: offset in the line and bytes (R68). -/
def spillBytes (act : Mask) (code : Nat) (x : Opd) : List (Nat × List Byte) :=
  let bits (l : Nat) : Word := (laneOf x.lanes l).bits
  match code with
  | 0 => [(0, natLE 4 (bits 0).toNat)]
  | 1 => [(0, natLE 4 (bits 0).toNat ++ natLE 4 (bits 1 - bits 0).toNat)]
  | 2 => (List.range 32).map fun l => (2 * l, natLE 2 (bits l).toNat)
  | _ => (lanesOf act).map fun l => (4 * l, natLE 4 (bits l).toNat)
/-- SPILL (R68). -/
def execSpill (a : BitVec 8) (sl : BitVec 9) (s : State) : Out :=
  let slot := sl.toNat
  .next (s.issue (.spill a sl) { reads := [a], slotA := [a] } s.warp.noSpill (s.warp.acquiring || s.storeFull 1) fun s iss os =>
    let x := os.getD 0 default
    let off := s.warp.spillOff slot
    match s.spillLine slot true with
    | (s, .mem _ ((pa, _) :: _)) =>
      let code := spillCode iss.act x
      let ws := (spillBytes iss.act code x).foldl (fun ws p => mergeBytes ws (pa + p.1) p.2) ([] : List SectorWrite)
      let mask := maskOf fun l => iss.act.has l && (laneOf x.lanes l).psn
      (s.enqueue (ws.map StoreAct.mem)).modFocus fun w => { w with spill := updAt w.spill slot fun _ => { code := code, mask := mask } }
    | (s, .fault c sp xoff) =>
      let fs := (lanesOf iss.act).map fun l => ({ lane := l, cause := c, place := privPlace, off := off, space := sp, xoff := xoff } : LaneFault)
      let t := s.tokensFor iss.pc fs
      let tok := tokenIn t.2 c
      t.1.holdLanes iss privPlace 0 false ((lanesOf iss.act).map fun l => { lane := l, pieces := none, token := tok }) []
    | (s, _) => s)

/-- One lane of a RELOAD, from the line at `pa` (R68). -/
def State.reloadLane (s : State) (die pa : Nat) (errs : List (Nat × Word)) (e : SpillEntry) (l : Nat) : Val :=
  let from' (o n : Nat) (f : Nat → Word) : Val :=
    match s.sectorToken die errs (pa + o) with
    | some t => Val.poison t
    | none =>
      let w := f (leNat (s.bytesAt die (pa + o) n))
      { bits := w, psn := e.mask.has l }
  match e.code with
  | 0 => from' 0 4 fun x => BitVec.ofNat 32 x
  | 1 => from' 0 8 fun x => BitVec.ofNat 32 x + BitVec.ofNat 32 (x / 2 ^ 32) * BitVec.ofNat 32 l
  | 2 => from' (2 * l) 2 fun x => BitVec.ofInt 32 (intOf 16 true x)
  | _ => from' (4 * l) 4 fun x => BitVec.ofNat 32 x
/-- The byte of the line at which a lane's value lies. -/
def spillPlace (code l : Nat) : Nat := match code with
  | 0 => 0
  | 1 => 0
  | 2 => 2 * l
  | _ => 4 * l
/-- RELOAD (R68). -/
def execReload (d : BitVec 8) (sl : BitVec 9) (s : State) : Out :=
  let slot := sl.toNat
  .next (s.issue (.reload d sl) (Form.loads { reads := [], dsts := [d] }) s.warp.noSpill s.warp.acquiring fun s iss _ =>
    let off := s.warp.spillOff slot
    let e := s.warp.spill.getD slot { code := 3, mask := 0#32 }
    match s.spillLine slot false with
    | (s, .mem _ ((pa, _) :: _)) =>
      let as := (lanesOf iss.act).map fun l =>
        ({ lane := l, place := privPlace, off := off, way := .mem 1 [(pa + spillPlace e.code l, 4)] } : LaneAcc)
      let p := s.prepare iss.pc true as
      let vs := lanes32 fun l => p.1.reloadLane p.1.myDie pa p.2 e l
      p.1.deliver iss.act iss.pc [d] [vs] [if e.code = 0 then .u else if e.code = 1 then .a else .g]
    | (s, .fault c sp xoff) =>
      let fs := (lanesOf iss.act).map fun l => ({ lane := l, cause := c, place := privPlace, off := off, space := sp, xoff := xoff } : LaneFault)
      let t := s.tokensFor iss.pc fs
      t.1.deliver iss.act iss.pc [d] [splat (Val.poison (tokenIn t.2 c))] [.u]
    | (s, _) => s)

/-! ## Special registers (R41, R69, R70) -/

/-- Thread coordinates of linear index t (R22). -/
def tidOf (wdim : Nat × Nat × Nat) (t : Nat) : Nat × Nat × Nat :=
  (t % wdim.1, t / wdim.1 % wdim.2.1, t / (wdim.1 * wdim.2.1))

/-- The value of a special register in a lane (R41, R70). In a task warp, which holds no thread of the box, the thread index is formed in the same
way (log 68). -/
def State.special (s : State) (n lane : Nat) : Nat :=
  let w := s.warp
  let g := s.myWg
  let l := s.myLaunch
  let p := l.pkt
  let t := 32 * w.ref.warp + lane
  match n with
  | 0x00 => (tidOf p.wdim t).1
  | 0x01 => (tidOf p.wdim t).2.1
  | 0x02 => (tidOf p.wdim t).2.2
  | 0x03 => t
  | 0x04 => w.ref.warp
  | 0x05 => spatialWarps p + l.krec.taskw
  | 0x06 => p.wdim.1
  | 0x07 => p.wdim.2.1
  | 0x08 => p.wdim.2.2
  | 0x09 => w.tsize
  | 0x10 => g.wg.1
  | 0x11 => g.wg.2.1
  | 0x12 => g.wg.2.2
  | 0x13 => rankOf p g
  | 0x14 => p.cdim.1
  | 0x15 => p.cdim.2.1
  | 0x16 => p.cdim.2.2
  | 0x17 => nwgOf p
  | 0x18 => g.stage
  | 0x19 => p.stages
  | 0x20 => g.cl.1
  | 0x21 => g.cl.2.1
  | 0x22 => g.cl.2.2
  | 0x23 => p.gdim.1
  | 0x24 => p.gdim.2.1
  | 0x25 => p.gdim.2.2
  | 0x28 => l.schedIx
  | 0x29 => l.sizeWord.toNat
  | 0x2A => p.flags % 2
  | 0x2B => if w.isTask then 1 else 0
  | 0x30 => s.fabric.node
  | 0x31 => (hwlocOf g.core w.quad).toNat
  | 0x40 => w.fpmode.toNat
  | 0x41 => w.fpstat.toNat
  | 0x42 => w.chan.toNat
  | 0x43 => g.progress.toNat
  | 0x44 => g.tagBase + 256 * g.tags.length
  | 0x45 => (if w.region.flag then 1 else 0) + (if w.region.opened then 2 else 0)
  | 0x46 => w.n + 256 * w.gmax + 65536 * w.generalCount
  | 0x47 => g.accBase + 16 * g.acc.length
  | 0x48 => g.wBase + 8 * g.wslot.length
  | _ => 0

/-- The tightest shape that 32 values fit (R42). -/
def tightest (vs : List Word) : Shape :=
  let b := vs.getD 0 0#32
  let st := vs.getD 1 0#32 - b
  if vs.all fun v => v == b then .u
  else if (List.range 32).all fun l => vs.getD l 0#32 == b + st * BitVec.ofNat 32 l then .a
  else .g
/-- SGET of FPSTAT waits for the merge of each MSCALE of the warp (R69, R176). -/
def State.scaling (s : State) : Bool :=
  (s.coreAt (s.coreOf s.warp.ref.wg)).queue.any fun e => e.warp == s.warp.ref && e.kind == .mscale
/-- SGET (R42, R69). -/
def execSget (d : BitVec 8) (sl : BitVec 10) (s : State) : Out :=
  .next (s.issue (.sget d sl) { reads := [], dsts := [d] } false (sl == 0x41#10 && s.scaling) fun s iss _ =>
    let vs := lanes32 fun l => BitVec.ofNat 32 (s.special sl.toNat l)
    s.deliver iss.act iss.pc [d] [vs.map Val.clean] [tightest vs])

/-- Whether SSET may store a value: no reserved field set, no reserved value in a field (R69, R70). -/
def specialValueOk (n : Nat) (x : Word) : Bool :=
  match n with
  | 0x40 => decide (x.toNat < 16) && decide (1 ≤ x.toNat % 8) && decide (x.toNat % 8 ≤ 5)
  | 0x41 => decide (x.toNat < 64)
  | 0x42 => decide (x.toNat < 16)
  | _ => decide (x.toNat < 65536)
/-- Write a special register (R70). -/
def State.setSpecial (s : State) (n : Nat) (x : Word) : State :=
  match n with
  | 0x40 => s.modFocus fun w => { w with fpmode := x }
  | 0x41 => s.modFocus fun w => { w with fpstat := x }
  | 0x42 => s.modFocus fun w => { w with chan := x }
  | _ => s.modWg s.warp.ref.wg fun g => { g with progress := x }
/-- SSET (R69): the value of the lowest-numbered active lane. -/
def execSset (r : BitVec 8) (sl : BitVec 10) (s : State) : Out :=
  .next (s.issue (.sset r sl) { reads := [r], slotA := [r] } false false fun s iss os =>
    let v := laneOf (os.getD 0 default).lanes iss.act.lowest
    if v.psn then s.flagMine [v.bits]
    else if specialValueOk sl.toNat v.bits then s.setSpecial sl.toNat v.bits
    else
      let t := s.mkToken s.myTag .illegalOperand (s.here (1#32 <<< iss.act.lowest) iss.pc)
      t.1.flagMine [t.2])

end Sys2Proof.Machine
end

