-- ==== Sys2Proof/Machine/Dispatch.lean ====
section
/-! DEFINITION. The dispatch from an instruction or event to its meaning. -/
namespace Sys2Proof.Machine
open Sys2Proof

def exec (i : Instr) (s : State) : Host.Outcome State Fault Refusal :=
  match i with
  | .nop => Sys2Proof.Machine.execNop s
  | .bra o => Sys2Proof.Machine.execBra o s
  | .bz a o => Sys2Proof.Machine.execBz a o s
  | .bnz a o => Sys2Proof.Machine.execBnz a o s
  | .brx a => Sys2Proof.Machine.execBrx a s
  | .call d im => Sys2Proof.Machine.execCall d im s
  | .ret a => Sys2Proof.Machine.execRet a s
  | .exit => Sys2Proof.Machine.execExit s
  | .yield => Sys2Proof.Machine.execYield s
  | .brk c => Sys2Proof.Machine.execBrk c s
  | .signal a n => Sys2Proof.Machine.execSignal a n s
  | .clock d => Sys2Proof.Machine.execClock d s
  | .sget d sl => Sys2Proof.Machine.execSget d sl s
  | .sset r sl => Sys2Proof.Machine.execSset r sl s
  | .ximmL im => Sys2Proof.Machine.execXimmL im s
  | .ximmH im => Sys2Proof.Machine.execXimmH im s
  | .life a b => Sys2Proof.Machine.execLife a b s
  | .hold c m => Sys2Proof.Machine.execHold c m s
  | .holdRel => Sys2Proof.Machine.execHoldRel s
  | .scale b a => Sys2Proof.Machine.execScale b a s
  | .mod h a b c sl t r => Sys2Proof.Machine.execMod h a b c sl t r s
  | .sched d => Sys2Proof.Machine.execSched d s
  | .schedYp d => Sys2Proof.Machine.execSchedYp d s
  | .mov d a => Sys2Proof.Machine.execMov d a s
  | .movi d im => Sys2Proof.Machine.execMovi d im s
  | .movg d a => Sys2Proof.Machine.execMovg d a s
  | .shape d a => Sys2Proof.Machine.execShape d a s
  | .spill a sl => Sys2Proof.Machine.execSpill a sl s
  | .reload d sl => Sys2Proof.Machine.execReload d sl s
  | .iadd d a b v => Sys2Proof.Machine.execIadd d a b v s
  | .isub d a b v => Sys2Proof.Machine.execIsub d a b v s
  | .imul d a b v => Sys2Proof.Machine.execImul d a b v s
  | .imulh d a b v => Sys2Proof.Machine.execImulh d a b v s
  | .imac d a b v => Sys2Proof.Machine.execImac d a b v s
  | .iaddcCo d a b => Sys2Proof.Machine.execIaddcCo d a b s
  | .iaddcCi d a b => Sys2Proof.Machine.execIaddcCi d a b s
  | .lea d a b v => Sys2Proof.Machine.execLea d a b v s
  | .iaddi d a im => Sys2Proof.Machine.execIaddi d a im s
  | .ishl d a b => Sys2Proof.Machine.execIshl d a b s
  | .ishr d a b v => Sys2Proof.Machine.execIshr d a b v s
  | .and d a b => Sys2Proof.Machine.execAnd d a b s
  | .or d a b => Sys2Proof.Machine.execOr d a b s
  | .xor d a b => Sys2Proof.Machine.execXor d a b s
  | .andn d a b => Sys2Proof.Machine.execAndn d a b s
  | .logi d a f im => Sys2Proof.Machine.execLogi d a f im s
  | .shi d a k n => Sys2Proof.Machine.execShi d a k n s
  | .imin d a b v => Sys2Proof.Machine.execImin d a b v s
  | .imax d a b v => Sys2Proof.Machine.execImax d a b v s
  | .icmp d a b v => Sys2Proof.Machine.execIcmp d a b v s
  | .sel d a b => Sys2Proof.Machine.execSel d a b s
  | .bfe d a b v => Sys2Proof.Machine.execBfe d a b v s
  | .bfi d a b => Sys2Proof.Machine.execBfi d a b s
  | .iunaPopc d a => Sys2Proof.Machine.execIunaPopc d a s
  | .iunaClz d a => Sys2Proof.Machine.execIunaClz d a s
  | .iunaBrev d a => Sys2Proof.Machine.execIunaBrev d a s
  | .iunaIabs d a => Sys2Proof.Machine.execIunaIabs d a s
  | .iunaIneg d a => Sys2Proof.Machine.execIunaIneg d a s
  | .lgetIdx d a b => Sys2Proof.Machine.execLgetIdx d a b s
  | .lgetRot d a b => Sys2Proof.Machine.execLgetRot d a b s
  | .pollEvery d a => Sys2Proof.Machine.execPollEvery d a s
  | .pollSome d a => Sys2Proof.Machine.execPollSome d a s
  | .pollMask d a => Sys2Proof.Machine.execPollMask d a s
  | .pollSame d a => Sys2Proof.Machine.execPollSame d a s
  | .pollCount d a => Sys2Proof.Machine.execPollCount d a s
  | .wredAdd d a => Sys2Proof.Machine.execWredAdd d a s
  | .wredMin d a v => Sys2Proof.Machine.execWredMin d a v s
  | .wredMax d a v => Sys2Proof.Machine.execWredMax d a v s
  | .wredAnd d a => Sys2Proof.Machine.execWredAnd d a s
  | .wredOr d a => Sys2Proof.Machine.execWredOr d a s
  | .wredXor d a => Sys2Proof.Machine.execWredXor d a s
  | .wredfFadd d a => Sys2Proof.Machine.execWredfFadd d a s
  | .wredfFmin d a => Sys2Proof.Machine.execWredfFmin d a s
  | .wredfFmax d a => Sys2Proof.Machine.execWredfFmax d a s
  | .scanIadd d a v => Sys2Proof.Machine.execScanIadd d a v s
  | .scanFadd d a v => Sys2Proof.Machine.execScanFadd d a v s
  | .scanImaxS d a v => Sys2Proof.Machine.execScanImaxS d a v s
  | .scanImaxN d a v => Sys2Proof.Machine.execScanImaxN d a v s
  | .scanIminS d a v => Sys2Proof.Machine.execScanIminS d a v s
  | .scanIminN d a v => Sys2Proof.Machine.execScanIminN d a v s
  | .scanOr d a v => Sys2Proof.Machine.execScanOr d a v s
  | .keymPeer d a f => Sys2Proof.Machine.execKeymPeer d a f s
  | .keymWhole d a f => Sys2Proof.Machine.execKeymWhole d a f s
  | .tile sl => Sys2Proof.Machine.execTile sl s
  | .headFlag d => Sys2Proof.Machine.execHeadFlag d s
  | .headNum d => Sys2Proof.Machine.execHeadNum d s
  | .fadd d a b => Sys2Proof.Machine.execFadd d a b s
  | .fsub d a b => Sys2Proof.Machine.execFsub d a b s
  | .fmul d a b => Sys2Proof.Machine.execFmul d a b s
  | .fmaA d a b => Sys2Proof.Machine.execFmaA d a b s
  | .fmaL d a b => Sys2Proof.Machine.execFmaL d a b s
  | .fmin d a b => Sys2Proof.Machine.execFmin d a b s
  | .fmax d a b => Sys2Proof.Machine.execFmax d a b s
  | .fcmp d a b v => Sys2Proof.Machine.execFcmp d a b v s
  | .fclass d a => Sys2Proof.Machine.execFclass d a s
  | .frnd d a => Sys2Proof.Machine.execFrnd d a s
  | .cvt d a t f => Sys2Proof.Machine.execCvt d a t f s
  | .hadd2 d a b v => Sys2Proof.Machine.execHadd2 d a b v s
  | .hmul2 d a b v => Sys2Proof.Machine.execHmul2 d a b v s
  | .hfma2 d a b v => Sys2Proof.Machine.execHfma2 d a b v s
  | .funaFabs d a => Sys2Proof.Machine.execFunaFabs d a s
  | .funaFneg d a => Sys2Proof.Machine.execFunaFneg d a s
  | .dot2 d a b v => Sys2Proof.Machine.execDot2 d a b v s
  | .dot8 sl d a b v => Sys2Proof.Machine.execDot8 sl d a b v s
  | .dot4 sl d a b v => Sys2Proof.Machine.execDot4 sl d a b v s
  | .sfuRcp d a => Sys2Proof.Machine.execSfuRcp d a s
  | .sfuRsq d a => Sys2Proof.Machine.execSfuRsq d a s
  | .sfuSqrt d a => Sys2Proof.Machine.execSfuSqrt d a s
  | .sfuExp2 d a => Sys2Proof.Machine.execSfuExp2 d a s
  | .sfuLog2 d a => Sys2Proof.Machine.execSfuLog2 d a s
  | .sfuSinp d a => Sys2Proof.Machine.execSfuSinp d a s
  | .sfuCosp d a => Sys2Proof.Machine.execSfuCosp d a s
  | .sfuTanh d a => Sys2Proof.Machine.execSfuTanh d a s
  | .exs d a b => Sys2Proof.Machine.execExs d a b s
  | .smxa d a b => Sys2Proof.Machine.execSmxa d a b s
  | .smxm d a => Sys2Proof.Machine.execSmxm d a s
  | .ld d a p sl o x c => Sys2Proof.Machine.execLd d a p sl o x c s
  | .st d a p sl o c => Sys2Proof.Machine.execSt d a p sl o c s
  | .ldp d a sl c => Sys2Proof.Machine.execLdp d a sl c s
  | .stp d a sl c => Sys2Proof.Machine.execStp d a sl c s
  | .atom v a p o r w => Sys2Proof.Machine.execAtom v a p o r w s
  | .atomn v a p o r w => Sys2Proof.Machine.execAtomn v a p o r w s
  | .fence k sl => Sys2Proof.Machine.execFence k sl s
  | .stc d a p o => Sys2Proof.Machine.execStc d a p o s
  | .waitv v a p c o => Sys2Proof.Machine.execWaitv v a p c o s
  | .smap r a t m => Sys2Proof.Machine.execSmap r a t m s
  | .sunmap l e => Sys2Proof.Machine.execSunmap l e s
  | .sflush l e => Sys2Proof.Machine.execSflush l e s
  | .xcopyG2s r a t => Sys2Proof.Machine.execXcopyG2s r a t s
  | .xcopyS2g r a t => Sys2Proof.Machine.execXcopyS2g r a t s
  | .xcopyS2c r a t => Sys2Proof.Machine.execXcopyS2c r a t s
  | .xcopyMcast r a t => Sys2Proof.Machine.execXcopyMcast r a t s
  | .xcopyRemote r a t => Sys2Proof.Machine.execXcopyRemote r a t s
  | .xloadw r a t sl => Sys2Proof.Machine.execXloadw r a t sl s
  | .rfence => Sys2Proof.Machine.execRfence s
  | .twaitAll d a => Sys2Proof.Machine.execTwaitAll d a s
  | .twaitAny d a => Sys2Proof.Machine.execTwaitAny d a s
  | .tfirst d a => Sys2Proof.Machine.execTfirst d a s
  | .tack a => Sys2Proof.Machine.execTack a s
  | .mloop n f a c m => Sys2Proof.Machine.execMloop n f a c m s
  | .mzero n => Sys2Proof.Machine.execMzero n s
  | .mscale n a => Sys2Proof.Machine.execMscale n a s
  | .mout n f a c => Sys2Proof.Machine.execMout n f a c s
  | .mget d a sl => Sys2Proof.Machine.execMget d a sl s
  | .mput r a sl => Sys2Proof.Machine.execMput r a sl s
  | .mperturb a b => Sys2Proof.Machine.execMperturb a b s
  | .barArrive im => Sys2Proof.Machine.execBarArrive im s
  | .barWait im => Sys2Proof.Machine.execBarWait im s
  | .barSync im => Sys2Proof.Machine.execBarSync im s
  | .barExpect a im => Sys2Proof.Machine.execBarExpect a im s
  | .gbar => Sys2Proof.Machine.execGbar s
  | .spawn d a => Sys2Proof.Machine.execSpawn d a s
  | .joinc d a => Sys2Proof.Machine.execJoinc d a s
  | .rgn => Sys2Proof.Machine.execRgn s
  | .commitX => Sys2Proof.Machine.execCommitX s
  | .commitB o => Sys2Proof.Machine.execCommitB o s
  | .commitR o => Sys2Proof.Machine.execCommitR o s
  | .commitP => Sys2Proof.Machine.execCommitP s
  | .ptest d a => Sys2Proof.Machine.execPtest d a s
  | .pinfoCause d a => Sys2Proof.Machine.execPinfoCause d a s
  | .pinfoEntry d a => Sys2Proof.Machine.execPinfoEntry d a s
  | .pfill d a => Sys2Proof.Machine.execPfill d a s
  | .pset d a => Sys2Proof.Machine.execPset d a s
  | .suppressedWord k => Sys2Proof.Machine.execSuppressedWord k s
  | .switchedIssue => Sys2Proof.Machine.execSwitchedIssue s
  | .resultArrival res => Sys2Proof.Machine.execResultArrival res s
  | .instructionFetch => Sys2Proof.Machine.execInstructionFetch s
  | .fetchRetry => Sys2Proof.Machine.execFetchRetry s
  | .translationWalk tag space off write => Sys2Proof.Machine.execTranslationWalk tag space off write s
  | .storeDrain core k => Sys2Proof.Machine.execStoreDrain core k s
  | .writeApply die k => Sys2Proof.Machine.execWriteApply die k s
  | .stashLineFill wg entry line => Sys2Proof.Machine.execStashLineFill wg entry line s
  | .smapExecute job => Sys2Proof.Machine.execSmapExecute job s
  | .copyRecordFetch job => Sys2Proof.Machine.execCopyRecordFetch job s
  | .copySector job => Sys2Proof.Machine.execCopySector job s
  | .copyTagDone job => Sys2Proof.Machine.execCopyTagDone job s
  | .mloopStep job => Sys2Proof.Machine.execMloopStep job s
  | .mloopComplete job => Sys2Proof.Machine.execMloopComplete job s
  | .matrixTagDone job => Sys2Proof.Machine.execMatrixTagDone job s
  | .slotAccess job => Sys2Proof.Machine.execSlotAccess job s
  | .moutExecute job => Sys2Proof.Machine.execMoutExecute job s
  | .waitvTest w => Sys2Proof.Machine.execWaitvTest w s
  | .waitvTimeout w => Sys2Proof.Machine.execWaitvTimeout w s
  | .commitRReplay w => Sys2Proof.Machine.execCommitRReplay w s
  | .commitPMatch w => Sys2Proof.Machine.execCommitPMatch w s
  | .commitPTimeout w => Sys2Proof.Machine.execCommitPTimeout w s
  | .stcFlagSend job => Sys2Proof.Machine.execStcFlagSend job s
  | .countedWriteArrival p => Sys2Proof.Machine.execCountedWriteArrival p s
  | .flagArrival p => Sys2Proof.Machine.execFlagArrival p s
  | .flagWriteRetry job => Sys2Proof.Machine.execFlagWriteRetry job s
  | .flagHoldExpiry job => Sys2Proof.Machine.execFlagHoldExpiry job s
  | .lossNoticeArrival n => Sys2Proof.Machine.execLossNoticeArrival n s
  | .packetAgeExpiry job => Sys2Proof.Machine.execPacketAgeExpiry job s
  | .remoteAccessArrival r => Sys2Proof.Machine.execRemoteAccessArrival r s
  | .remoteResponseArrival req r => Sys2Proof.Machine.execRemoteResponseArrival req r s
  | .remoteResponseTimeout req => Sys2Proof.Machine.execRemoteResponseTimeout req s
  | .hostResponseArrival req r => Sys2Proof.Machine.execHostResponseArrival req r s
  | .launchPacketTake q => Sys2Proof.Machine.execLaunchPacketTake q s
  | .launchReadRetry q => Sys2Proof.Machine.execLaunchReadRetry q s
  | .sizeClassSelect q => Sys2Proof.Machine.execSizeClassSelect q s
  | .launchAdmit q => Sys2Proof.Machine.execLaunchAdmit q s
  | .clusterPlace launch die cluster => Sys2Proof.Machine.execClusterPlace launch die cluster s
  | .workgroupEnd wg => Sys2Proof.Machine.execWorkgroupEnd wg s
  | .launchComplete launch => Sys2Proof.Machine.execLaunchComplete launch s
  | .taskStart w => Sys2Proof.Machine.execTaskStart w s
  | .taskRingRefill launch core => Sys2Proof.Machine.execTaskRingRefill launch core s
  | .taskAutojoin w => Sys2Proof.Machine.execTaskAutojoin w s
  | .taskAutojoinRetry w => Sys2Proof.Machine.execTaskAutojoinRetry w s
  | .preemptDecision ask => Sys2Proof.Machine.execPreemptDecision ask s
  | .drainBoundExpiry cluster => Sys2Proof.Machine.execDrainBoundExpiry cluster s
  | .warpSave w => Sys2Proof.Machine.execWarpSave w s
  | .unitSave cluster => Sys2Proof.Machine.execUnitSave cluster s
  | .unitFlush cluster => Sys2Proof.Machine.execUnitFlush cluster s
  | .unitResume cluster die hc => Sys2Proof.Machine.execUnitResume cluster die hc s
  | .pageHomeMove tag off frame => Sys2Proof.Machine.execPageHomeMove tag off frame s
  | .squeegeeScrub sector => Sys2Proof.Machine.execSqueegeeScrub sector s
  | .contextKill tag cause => Sys2Proof.Machine.execContextKill tag cause s
  | .censusUpdate => Sys2Proof.Machine.execCensusUpdate s
  | .resourceFailure r => Sys2Proof.Machine.execResourceFailure r s
  | .planeFailure plane => Sys2Proof.Machine.execPlaneFailure plane s
  | .thermalThrottle => Sys2Proof.Machine.execThermalThrottle s
  | .thermalTrip => Sys2Proof.Machine.execThermalTrip s
  | .coldReset => Sys2Proof.Machine.execColdReset s
  | .portLinkDown link => Sys2Proof.Machine.execPortLinkDown link s
  | .qwrite f q v => Sys2Proof.Machine.execQwrite f q v s
  | .qctlEnSet f q v => Sys2Proof.Machine.execQctlEnSet f q v s
  | .qctlEnClear f q v => Sys2Proof.Machine.execQctlEnClear f q v s
  | .qctlDrain f q v => Sys2Proof.Machine.execQctlDrain f q v s
  | .flr f => Sys2Proof.Machine.execFlr f s
  | .ctlsemAcq f => Sys2Proof.Machine.execCtlsemAcq f s
  | .ctlsemRel f => Sys2Proof.Machine.execCtlsemRel f s
  | .mbdoor f => Sys2Proof.Machine.execMbdoor f s
  | .create f a => Sys2Proof.Machine.execCreate f a s
  | .destroy f a => Sys2Proof.Machine.execDestroy f a s
  | .setroot f a => Sys2Proof.Machine.execSetroot f a s
  | .inval f a => Sys2Proof.Machine.execInval f a s
  | .grant f a => Sys2Proof.Machine.execGrant f a s
  | .share f a => Sys2Proof.Machine.execShare f a s
  | .channel f a => Sys2Proof.Machine.execChannel f a s
  | .vfassign f a => Sys2Proof.Machine.execVfassign f a s
  | .isolate f a => Sys2Proof.Machine.execIsolate f a s
  | .fwupdate f a => Sys2Proof.Machine.execFwupdate f a s
  | .drain f a => Sys2Proof.Machine.execDrain f a s
  | .reset f a => Sys2Proof.Machine.execReset f a s
  | .ectrWrite f tag n v => Sys2Proof.Machine.execEctrWrite f tag n v s
  | .srdoneWrite f tag v => Sys2Proof.Machine.execSrdoneWrite f tag v s
  | .injctlArm f tag v => Sys2Proof.Machine.execInjctlArm f tag v s
  | .injctlDisarm f tag v => Sys2Proof.Machine.execInjctlDisarm f tag v s
  | .registerWrite f off v => Sys2Proof.Machine.execRegisterWrite f off v s
  | .bar2Read f off size => Sys2Proof.Machine.execBar2Read f off size s
  | .bar2Write f off data => Sys2Proof.Machine.execBar2Write f off data s
  | .hostCxlMemAccess port off size data => Sys2Proof.Machine.execHostCxlMemAccess port off size data s
  | .censusRead off len => Sys2Proof.Machine.execCensusRead off len s
  | .getVersion => Sys2Proof.Machine.execGetVersion s
  | .getCapabilities => Sys2Proof.Machine.execGetCapabilities s
  | .negotiateAlgorithms => Sys2Proof.Machine.execNegotiateAlgorithms s
  | .getDigests => Sys2Proof.Machine.execGetDigests s
  | .getCertificate off len => Sys2Proof.Machine.execGetCertificate off len s
  | .challenge nonce => Sys2Proof.Machine.execChallenge nonce s
  | .getMeasurements index nonce => Sys2Proof.Machine.execGetMeasurements index nonce s
  | .unsupportedRequest code => Sys2Proof.Machine.execUnsupportedRequest code s
  | .pldmSensorRead sensor => Sys2Proof.Machine.execPldmSensorRead sensor s
  | .fruEepromRead off len => Sys2Proof.Machine.execFruEepromRead off len s
  | .vfEnable port on => Sys2Proof.Machine.execVfEnable port on s
  | .powerLoss => Sys2Proof.Machine.execPowerLoss s
  | .backInvalidateResponse job => Sys2Proof.Machine.execBackInvalidateResponse job s
  | .globalObservationResponse req line => Sys2Proof.Machine.execGlobalObservationResponse req line s

end Sys2Proof.Machine
end

