-- ==== Sys2Proof/Machine/Moves.lean ====
section
/-!
DEFINITION. What the device could do next by itself: the issue of a warp, and every event whose condition holds (log 3).
-/
namespace Sys2Proof.Machine
open Sys2Proof

/-- A move: the warp that is brought to the issuing place first, if any, and the instruction or event. INSTRUCTION_FETCH stands for the
fetch of that warp's next word with its issue. -/
structure Move where
  at' : Option WarpRef
  i : Instr
  deriving DecidableEq, Repr, Inhabited
/-- An event that needs no warp in the issuing place. -/
def event (i : Instr) : Move := { at' := none, i := i }

/-- The workgroup of a warp is still filling what it must before it issues (R210). -/
def State.refilling (s : State) (w : Warp) : Bool := ((s.wgOf w.ref.wg).map fun g => !g.refill.isEmpty).getD false
/-- The issue moves (R57, R198, R299, R300). A warp that a pending preemption takes at the point where it stands does not issue (R57, R338). -/
def State.issueMoves (s : State) : List Move :=
  (s.allWarps.filter fun w => !s.mayTakeWarp w && !s.refilling w && (w.mayIssue && w.group.isSome || w.mayIssue && w.mustSwitch)).filterMap fun w =>
    if w.fetchHold.isSome then (if s.fetchServed w then some { at' := some w.ref, i := .fetchRetry } else none)
    else some { at' := some w.ref, i := if w.mustSwitch then .switchedIssue else .instructionFetch }
/-- Results that have come, and loads that may be performed now (R53, R222). -/
def State.resultMoves (s : State) : List Move :=
  s.allWarps.flatMap fun w => (w.pend.filter fun p => p.left == 0#32 || w.late.any fun h => h.res == some p.id).map fun p => event (.resultArrival p.id)
/-- Writes that may leave a store queue, and writes that a die may apply (R236, R263). -/
def State.memoryMoves (s : State) : List Move :=
  ((List.range s.cores.length).flatMap fun c => let q := (s.coreAt c).storeQ
    ((List.range q.length).filter (mayDrain q)).map fun k => event (.storeDrain c k))
  ++ ((List.range 5).flatMap fun e => ((List.range s.mem.log.length).filter (s.mem.mayApply e)).map fun k => event (.writeApply e k))
/-- Mappings and the fills of prefilled ones (R206, R207, R231). -/
def State.mapMoves (s : State) : List Move :=
  (s.smaps.filter s.smapTurn).flatMap fun j =>
    let e := (((s.wgOf j.wg).getD default).smap.getD j.entry default)
    if j.registered && e.valid && !e.absent.isEmpty then e.absent.map fun l => event (.stashLineFill j.wg j.entry l)
    else [event (.smapExecute j.id)]
/-- The fills that a resumed workgroup waits for (R210). -/
def State.refillMoves (s : State) : List Move :=
  s.wgs.flatMap fun g => if g.saved || g.ended then [] else g.refill.flatMap fun e =>
    (g.smap.getD e default).absent.map fun l => event (.stashLineFill g.id e l)
/-- Copies (R240, R245). -/
def State.copyMoves (s : State) : List Move :=
  (s.copies.filter fun c => !((s.wgOf c.wg).getD default).saved && !s.copyAwaits c).map fun c =>
    event (if c.finished then .copyTagDone c.id else if c.record.isNone then .copyRecordFetch c.id else .copySector c.id)
/-- The matrix queues (R160, R170 to R180). -/
def State.matrixMoves (s : State) : List Move :=
  ((s.cores.flatMap fun c => c.queue).filter s.slotTurn).map (fun e => event (match e.kind with
    | .mloop => if s.mloopReady e then .mloopStep e.id else .mloopComplete e.id
    | .mout => .moutExecute e.id
    | _ => .slotAccess e.id))
  ++ (s.tagDones.filter fun t => !((s.wgOf t.wg).getD default).saved).map fun t => event (.matrixTagDone t.id)
/-- Whether a WAITV's time has passed. -/
def State.waitOver (s : State) (w : Warp) : Bool :=
  w.waitsValue && !w.waitv.late && !w.waitv.first && decide (w.waitv.start + w.waitv.timeout * 1024 ≤ s.ctr (dieOf (s.coreOf w.ref.wg)))
/-- Whether a COMMIT.P's time has passed. -/
def State.commitOver (s : State) (w : Warp) : Bool := match w.commitWait with
  | some (t, _) => w.status == .running && decide (t + 2 ^ 20 ≤ s.ctr (dieOf (s.coreOf w.ref.wg))) && !s.pairReady w
  | none => false
/-- The waits of warps (R295, R385, R391), tasks (R40, R333, R336) and saves (R57). -/
def State.warpMoves (s : State) : List Move :=
  s.allWarps.flatMap fun w =>
    (if s.mayTest w then [event (.waitvTest w.ref)] else []) ++ (if s.waitOver w then [event (.waitvTimeout w.ref)] else [])
    ++ (if s.replayReady w then [event (.commitRReplay w.ref)] else []) ++ (if s.pairReady w then [event (.commitPMatch w.ref)] else [])
    ++ (if s.commitOver w then [event (.commitPTimeout w.ref)] else [])
    ++ (if s.joinReady w && w.joinAt.isNone then [event (.taskAutojoin w.ref)] else [])
    ++ (if s.joinDue w then [event (.taskAutojoinRetry w.ref)] else [])
    ++ (if s.mayTakeWarp w then [event (.warpSave w.ref)] else [])
/-- The fabric (R284 to R288, R293). -/
def State.fabricMoves (s : State) : List Move :=
  ((s.fabric.sends.filter s.mayFlag).map fun j => event (.stcFlagSend j.id))
  ++ ((s.fabric.waiting.filter s.flagServed).map fun h => event (.flagWriteRetry h.id))
  ++ ((s.fabric.easel.filter s.flagExpired).map fun h => event (.flagHoldExpiry h.id))
  ++ ((s.fabric.requests.filter s.overdue).map fun r => event (.remoteResponseTimeout r.id))
/-- The hardware clusters on which a unit that is away can resume. -/
def State.resumesOn (s : State) (l : Launch) (u : ClusterUnit) : List Nat :=
  if u.away then (List.range 64).filter fun hc => (s.bringUnit l u hc).isSome else []
/-- The lowest class number of a unit that can resume now; 4 for none (R338). -/
def State.resumeClass (s : State) : Nat :=
  s.launches.foldl (fun m l => if l.units.any fun u => !(s.resumesOn l u).isEmpty then min m (s.classOf l) else m) 4
/-- Launches and tasks (R319 to R341). A unit resumes ahead of every unit of a higher class number. -/
def State.launchMoves (s : State) : List Move :=
  let first := s.resumeClass
  let queues := List.range s.queues.length
  ((queues.filter fun q => s.mayTake (s.queue q)).map fun q => event (.launchPacketTake q))
  ++ ((queues.filter fun q => (s.queue q).maySelect).map fun q => event (.sizeClassSelect q))
  ++ ((queues.filter fun q => s.readServed (s.queue q)).map fun q => event (.launchReadRetry q))
  ++ (match s.nextAdmit with
    | some (q, _) => if (s.queue q).cls ≤ first then [event (.launchAdmit q)] else []
    | none => [])
  ++ ((s.launches.filter fun l => !l.pkt.coop && decide (l.placed < clusterTotal l.pkt) && decide (s.classOf l ≤ first)).flatMap fun l =>
      (s.placesNow l).map fun hc => event (.clusterPlace l.id (hc / 16) (hc % 16)))
  ++ ((s.launches.filter fun l => decide (s.classOf l ≤ first)).flatMap fun l => l.units.flatMap fun u =>
      (s.resumesOn l u).map fun hc => event (.unitResume u.id (hc / 16) (hc % 16)))
  ++ ((s.wgs.filter s.mayEnd).map fun g => event (.workgroupEnd g.id))
  ++ ((s.launches.filter s.complete).map fun l => event (.launchComplete l.id))
  ++ ((s.wgs.filter fun g => !g.saved && !g.ended).flatMap fun g => match s.queuedOn g.core g.launch, s.idleSlots g.core g.launch with
      | _ :: _, x :: _ => if x.ref.wg = g.id then [event (.taskStart x.ref)] else []
      | _, _ => [])
  ++ (s.launches.flatMap fun l => if s.ringServed l then [event (.taskRingRefill l.id (l.ringFor.getD 0))] else
      ((List.range s.cores.length).filter (s.mayRefill l)).map fun c => event (.taskRingRefill l.id c))
/-- Preemption (R329, R338). -/
def State.preemptMoves (s : State) : List Move :=
  ((List.range 4).flatMap fun c => if s.starved c then (match s.victim c with
    | some u => [event (.preemptDecision { cluster := u, asker := none })]
    | none => []) else [])
  ++ s.launches.flatMap fun l => l.units.flatMap fun u =>
    (if s.drainOver l u then [event (.drainBoundExpiry u.id)] else []) ++ (if s.maySave l u then [event (.unitSave u.id)] else [])
    ++ (if u.state == .flushing && (s.liveUnit l u).all s.flushReady then [event (.unitFlush u.id)] else [])
/-- The command that a mailbox request is (R358). -/
def commandOf (f code : Nat) (a : List Word) : Option Instr :=
  match code with
  | 1 => some (.create f a)
  | 2 => some (.destroy f a)
  | 3 => some (.setroot f a)
  | 4 => some (.inval f a)
  | 5 => some (.grant f a)
  | 6 => some (.share f a)
  | 7 => some (.channel f a)
  | 8 => some (.vfassign f a)
  | 9 => some (.isolate f a)
  | 10 => some (.fwupdate f a)
  | 11 => some (.drain f a)
  | 12 => some (.reset f a)
  | _ => none
/-- A command stays in progress until accesses that used an old translation are performed (R197, R256). -/
def State.commandWaits (s : State) : Instr → Bool
  | .destroy f a => s.destroyWaits f a
  | .inval f a => s.invalWaits f a
  | .grant f a => s.grantWaits f a
  | .share f a => s.shareWaits f a
  | _ => false
/-- The Safelight: the oldest request, the ends of kills and of resets, and the shadow copy of the census (R357, R369, R402). -/
def State.serviceMoves (s : State) : List Move :=
  (match s.svc.mailbox with
    | (f, w :: a) :: _ => (match commandOf f (w.toNat % 256) a with
      | some i => if s.commandWaits i then [] else [event i]
      | none => [])
    | _ => [])
  ++ (((List.range 64).filter s.killReady).map fun t => event (.contextKill t 0x13))
  ++ (if s.censusStale then [event .censusUpdate] else [])
  ++ ((List.range 18).filter fun f => (s.func f).resetting && !s.flrWaits f).map fun f => event (.flr f)

/-- The ordered accesses and fences that have issued, and may be performed now (R236): the move names the instruction that waits. -/
def State.heldMoves (s : State) : List Move :=
  s.allWarps.filterMap fun w => w.held.bind fun h => if (s.focus w.ref).heldReady then some { at' := some w.ref, i := h.i } else none

/-- Every move that the device could make. -/
def State.moves (s : State) : List Move :=
  s.heldMoves ++ s.issueMoves ++ s.resultMoves ++ s.memoryMoves ++ s.mapMoves ++ s.refillMoves ++ s.copyMoves ++ s.matrixMoves ++ s.warpMoves ++ s.fabricMoves
    ++ s.launchMoves ++ s.preemptMoves ++ s.serviceMoves

/-! ## Making a move -/

/-- The first instruction of a workgroup's residence issues: its elapsed cycles count from here (R337). -/
def State.beganNow (s : State) : State :=
  if s.myWg.began.isSome then s
  else
    let now := s.ctr s.myDie
    s.modWg s.warp.ref.wg fun g => { g with began := some now }
/-- Run what the issuing warp has fetched. -/
def State.issueFetched (s : State) : Out :=
  match s.warp.ir with
  | none => .next s
  | some (.instr i) => exec i (s.modFocus fun w => { w with ir := none }).beganNow
  | some (.suppressed k) => exec (.suppressedWord k) (s.modFocus fun w => { w with ir := none }).beganNow
/-- Make a move. INSTRUCTION_FETCH is the fetch of the issuing warp's next word and, unless its page is missing, its issue; the instruction that a
warp has issued and that waits is performed. -/
def State.make (s : State) (m : Move) : Out :=
  let s := match m.at' with
    | some r => s.focus r
    | none => s
  match m.i with
  | .instructionFetch => s.fetch.issueFetched
  | i => if m.at'.isSome && s.warp.held.map Held.i == some i then .next s.performHeld else exec i s

/-- A step in which a context met an error in its own dirty line delivers nothing, and its kill comes next (R411). -/
def State.orKilled (s : State) : Out → Out
  | .next t => .next (match t.svc.lost with
    | some (die, tag, pa) => s.killOwner die tag pa
    | none => t)
  | out => out
/-- What the outside does stays done, whatever error it met in a context's dirty line (R397). -/
def keptOut : Out → Out
  | .next t => .next (t.modSvc fun v => { v with lost := none })
  | out => out

/-! ## Lines that the host holds (R268) -/

/-- A line as its home holds it. -/
def State.homeLine (s : State) (line : Nat) : List (List Byte × Option Word) :=
  (List.range 4).map fun k => (s.bytesAt (homeDie (line * 128)) (line * 128 + 32 * k) 32, s.tokenOf (homeDie (line * 128)) (line * 128 + 32 * k))
/-- The lines that the host may cache and that stand changed at their home in `t` (R268). -/
def State.hostStale (s t : State) : List Nat := s.svc.directory.filter fun l => s.homeLine l != t.homeLine l
/-- The host is asked to give up a line, once. -/
def State.askBack (s : State) (line : Nat) : State :=
  if s.svc.backInv.any fun b => b.2 == line then s
  else ({ s with nextId := s.nextId + 1 }.send (.backInvalidate s.nextId line)).modSvc fun v => { v with backInv := v.backInv ++ [(s.nextId, line)] }
/-- A move that would apply a write at the home of a line that the host may cache is not made yet: the host's copy is back-invalidated, and the
move waits for the response. `t` is the state before it (R268; log 57). -/
def State.guarded (t : State) : Out → Out
  | .next u => match t.hostStale u with
    | [] => .next u
    | ls => .next (ls.foldl State.askBack t)
  | out => out
/-- What comes from outside, and a test that is due at once, do not wait: the host's copies of the lines they change go with them (log 57). -/
def State.invalidating (t : State) : Out → Out
  | .next u => .next ((t.hostStale u).foldl (fun u l => u.backInvalidate (l * 128)) u)
  | out => out

/-! ## The order of coherence requests within a cycle (R261) -/

/-- The core whose request, or whose engine's, a move brings, and whether it is an engine's. -/
def State.moveCore (s : State) (m : Move) : Option (Nat × Bool) :=
  match m.at' with
  | some r => some (s.coreOf r.wg, false)
  | none => match m.i with
    | .storeDrain c _ => some (c, false)
    | .taskAutojoin w => some (s.coreOf w.wg, false)
    | .taskAutojoinRetry w => some (s.coreOf w.wg, false)
    | .commitPMatch w => some (s.coreOf w.wg, false)
    | .commitPTimeout w => some (s.coreOf w.wg, false)
    | .copySector j => (s.copies.find? fun c => c.id == j).map fun c => (s.coreOf c.wg, true)
    | .moutExecute j => (s.cores.flatMap fun c => c.queue).find? (fun e => e.id == j) |>.map fun e => (s.coreOf e.wg, true)
    | _ => none
/-- The place in cycle `now` of die `h` of a request that enters at die `o`: slot (c - cycle) mod 64 for core c of the die itself, its own request
before its engine's; after them those of another die's link, by source die. -/
def requestPlace (h o now : Nat) (c : Option (Nat × Bool)) : Nat :=
  if o ≠ h then 128 + o
  else match c with
    | some (c, engine) => (c % 64 + 64 - now % 64) % 64 * 2 + engine.toNat
    | none => 0
/-- An ownership request for a line of die `h` is taken: where its place in the cycle has passed, or its core has asked for the line in that cycle
already, it is one of the next cycle (R261; log 44). -/
def State.takeRequest (s : State) (h o line : Nat) (c : Option (Nat × Bool)) : State :=
  let last := s.served.getD h (0, 0, 0)
  let p := requestPlace h o (s.ctr h) c
  let late := last.1 = s.ctr h ∧ (p < last.2.1 ∨ (last.2.1 = p ∧ last.2.2 = line))
  let now := if late then s.ctr h + 1 else s.ctr h
  { s with ctrs := updAt s.ctrs h fun _ => now
           served := (List.range 5).map fun d => if d = h then (now, requestPlace h o now c, line) else s.served.getD d (0, 0, 0) }
/-- The requests that a move has brought, in their order (R261). -/
def State.timed (s : State) (m : Move) : Out → Out
  | .next u =>
    let new (e : LogEntry) : Bool := !(s.mem.log.any fun x => x.origin == e.origin && x.stamp == e.stamp)
    .next ((u.mem.log.filter new).foldl (fun u e => u.takeRequest (homeDie e.write.addr) e.origin (e.write.addr / 128) (s.moveCore m)) u)
  | out => out
/-- Whether the next relaxed load that issues is performed at once (R222, R275; log 72). -/
def State.drawn (s : State) : Out → Out
  | .next u => .next { u with slack := Config.defer s.tick }
  | out => out

end Sys2Proof.Machine
end

