-- ==== Sys2Proof/Machine/Step.lean ====
section
/-!
DEFINITION. One step of the device: time passes, then either what the outside does next happens, or one of the moves the device could make
(log 3); and the placing of one instruction where the next step fetches it.
-/
namespace Sys2Proof.Machine
open Sys2Proof

/-- Time passes: the counters of R318 advance (log 2). -/
def State.turn (s : State) : State :=
  { s with tick := s.tick + 1, ctrs := (List.range 5).map fun d => s.ctr d + Config.cycles s.tick d }

/-- Whether an event from outside acts on a module without power, or whose Safelight does not run (R18, R365). -/
def Instr.actsUnpowered : Instr → Bool
  | .coldReset => true
  | .fruEepromRead _ _ => true
  | .powerLoss => true
  | _ => false
/-- One step. -/
def step (s : State) : Host.Outcome State Fault Refusal :=
  let t := s.turn
  -- a wait tests again after every write that is applied to its line, before anything else follows (R295)
  match if s.svc.runs then s.allWarps.find? s.retestDue else none with
  | some w => t.invalidating (t.orKilled (.next (t.asWarp w.ref State.waitTest)))
  | none =>
  match s.inputs with
  | x :: rest =>
    let t := { t with inputs := rest, via := x.via }
    if !(s.svc.runs || Instr.actsUnpowered x.i) then .next t
    else match x.i with
      | .instructionFetch => let m : Move := { at' := some t.warp.ref, i := .instructionFetch }; t.timed m (t.invalidating (t.orKilled (t.make m)))
      | i => let m := event i; t.timed m (t.invalidating (keptOut (t.make m)))
  | [] =>
    if !s.svc.powered then .fault .unpowered
    else match if s.svc.safelight then s.moves else [] with
      | [] => .next t
      | m :: ms =>
        let m := if ms.isEmpty then m else (m :: ms).getD (Config.choice s.tick % (ms.length + 1)) m
        t.drawn (t.timed m (t.guarded (t.orKilled (t.make m))))

/-! ## One instruction where the next step fetches it -/

/-- The launch in which it runs: one workgroup of one warp of 32 threads. -/
def Launch.probe (id : Nat) : Launch :=
  { id := id, queue := 0, tag := 1
    pkt := { flags := 0, krec := 0, gdim := (1, 1, 1), wdim := (32, 1, 1), cdim := (1, 1, 1), stages := 1, schedn := 0, doneCtr := 0
             doneAdd := 0, places := List.replicate 4 0xFFF8#16, schedTab := 0, sizeAddr := 0, waits := [], pbound := 0, tringn := 4
             tquota := 1, launchId := 0, tring := 0, hints := 0 }
    krec := { entry := 0x8000, codeBase := 0x8000, codeSize := 0x100, n := 240, gmax := 240, taskw := 0, nbar := 1, stashk := 1, accSlots := 1
              wSlots := 1, tags := 8, privw := 128, spw := 64, yieldi := 0, restart := false }
    schedIx := 0, sizeWord := 0#32, paired := false, placed := 1, units := [], restarts := 0, missed := 0, outstanding := 0, ringHead := 0
    ringTail := 0, ring := [], ringWait := [], ringReq := none, gbars := [] }
/-- The words of memory that the fetch needs, all in frame 0: the tables of levels 0 to 2 and the instruction at 0x8000. -/
def Memory.probe (m : Memory) (w : Nat) : Memory :=
  (((m.mark 0 none).setBytes 0 (natLE 8 0x2001)).mark 0x2000 none |>.setBytes 0x2000 (natLE 8 0x4001) |>.mark 0x4000 none
    |>.setBytes 0x4000 (natLE 8 0xF) |>.mark 0x8000 none).setBytes 0x8000 (natLE 4 w)
/-- `s` with the instruction whose bits are `w` at PC 0x8000 of a running warp, which the next step issues: function 0 owns frame 0,
context 1 is live with its SPACE 0 table there, and a launch with one workgroup on core 0 stands (log 38). -/
def State.withFetchWord (s : State) (_nbits w : Nat) : State :=
  let l := Launch.probe s.nextId
  let g := Wg.fresh l (s.nextId + 1) 0 0 0 0 0 { acc := 0, wslot := 0, tags := 0, quads := [0] }
  let x := Warp.begin l g.id 0 0 0xC000
  let parked := s.warp :: s.parked
  let t := { s with warp := x, parked := parked, wgs := g :: s.wgs, launches := l :: s.launches, nextId := s.nextId + 2 }
  let t := t.modCtx 1 fun c => { c with state := 1, func := 0, roots := [some 0, some 0, none], privUsed := 0x10000 }
  let t := t.modSvc fun v => { v.setFrame 0 0 0#18 with powered := true, safelight := true, errors := v.errors.filter fun e => decide (2048 ≤ e.sector) }
  let t := t.modMem fun d => { d.sync with base := d.sync.base.probe w }
  let clear (k : Core) : Core := { k with tlb := [] }
  let t := { t with cores := t.cores.map clear, l2tlb := List.replicate 64 [] }
  { t with inputs := { i := .instructionFetch } :: s.inputs }

end Sys2Proof.Machine
end

