-- ==== Sys2Proof/Safety.lean ====
section
/-!
DEFINITION. The words the statements are made of: memories in their canonical form, a machine that goes on, an issue that nothing stops,
and what an instruction with a result leaves.
-/
namespace Sys2Proof.Machine
open Sys2Proof

/-! ## Memory and going on -/

/-- Every memory of a workgroup has its canonical form: its stash and its weight slots. -/
def Wg.memWf (g : Wg) : Bool := g.stash.wf && g.wslot.all Memory.wf
/-- Every memory of the device has its canonical form. -/
def State.memWf (s : State) : Bool := s.mem.base.wf && s.wgs.all Wg.memWf
/-- A machine that has power, or something from outside to do, never stops: `n` steps from `s` answer next states. -/
def goesOn : Nat → State → Prop
  | 0, _ => True
  | n + 1, s => match step s with
    | .next t => goesOn n t
    | _ => False

/-! ## An issue that nothing stops -/

/-- The value that a code holds in a lane (R44). -/
def Warp.valueOf (w : Warp) (c : Code) (l : Nat) : Val := laneOf (w.rawSource c).1.lanes l
/-- The shape that a code holds (R46). -/
def Warp.shapeOf (w : Warp) (c : Code) : Shape := (w.rawSource c).1.shape
/-- Reading a code in the lanes of a mask raises nothing: a cabinet register below N that is not dead (R50, R54), valid lanes (R45). -/
def Warp.readable (w : Warp) (act : Mask) (c : Code) : Prop :=
  act &&& ~~~ (w.rawSource c).2 = 0#32 ∧
  (isCab c = true → c.toNat < w.n ∧ (w.cab.getD c.toNat Reg.fresh).dead = false)

/-- The warp in the issuing place issues `i`, of form `f`, for the active lanes `act` at `pc`: it waits for nothing (R300), no field of `i`
holds a reserved value (R79), no result that it needs is outstanding (R53, R303), its sources can be read, and no word of core
storage holds an uncorrectable error (R396). -/
structure State.Issues (s : State) (i : Instr) (f : Form) (act : Mask) (pc : DWord) : Prop where
  group : s.warp.group = some (act, pc)
  runs : s.warp.mayIssue = true
  valid : i.wf = true
  ready : s.warp.blocked (f.reads ++ f.late) f.dsts = false
  sources : ∀ c ∈ f.reads, s.warp.readable (if f.wide.contains c then fullMask else act) c
  sound : s.svc.wordErrors = []

/-- The first token among source values, else a word (R117). -/
def orToken (vs : List Val) (x : Word) : Val := match firstPoison vs with
  | some t => Val.poison t
  | none => Val.clean x
/-- The lane values of a result: the lanes outside the mask are not written. -/
def resultOf (act : Mask) (r : Nat → Val) : List Val := lanes32 fun l => if act.has l then r l else Val.zero
/-- The flags that the active lanes raise (R112). -/
def flagsOf (act : Mask) (f : Nat → Flags) : Flags :=
  (List.range 32).foldl (fun a l => a ||| (if act.has l then f l else 0#6)) 0#6

/-- A result may be written to a destination code: it is no cabinet register, or one below N (R50) whose write leaves no more than Gmax
general registers (R50), and it is not dead unless every lane is written (R54). -/
def Warp.takes (w : Warp) (act : Mask) (d : Code) (vs : List Val) (nom : Shape) : Prop :=
  isCab d = true → d.toNat < w.n ∧
    (resultShape act vs nom = .g → w.generalCount - (if (w.cab.getD d.toNat Reg.fresh).shape = .g ∧ (w.cab.getD d.toNat Reg.fresh).dead = false then 1 else 0)
      < w.gmax) ∧
    ((w.cab.getD d.toNat Reg.fresh).dead = true → act = fullMask)
/-- A warp after such a write. -/
def Warp.put (w : Warp) (act : Mask) (d : Code) (vs : List Val) (nom : Shape) : Warp :=
  if isCab d then w.setReg d.toNat
    { lanes := mergeLanes act vs (w.cab.getD d.toNat Reg.fresh).lanes, shape := resultShape act vs nom, dead := false }
  else if isDrawer d then w.writeDrawer act (d.toNat - 0xF0) vs nom
  else w

/-- One word of a result: its destination, its nominal shape (R47) and its lane values. -/
structure ResWord where
  dst : Code
  nom : Shape
  val : Nat → Val
/-- Every word of a result may be written, in order. -/
def Warp.takesAll (act : Mask) : List ResWord → Warp → Prop
  | [], _ => True
  | r :: rs, w => w.takes act r.dst (resultOf act r.val) r.nom ∧ takesAll act rs (w.put act r.dst (resultOf act r.val) r.nom)

/-- What an instruction with a result leaves (R47, R52, R53, R112, R310): each destination and the lowest unpinned latch position hold the
result in the active lanes, and the other lanes of a destination keep their values; the flags are ORed into FPSTAT; the active lanes
are at the next word; and nothing else changes: not another register, not a special register, not the region, nothing outside the
warp. The dead bit of a register may be set by a LIFE mark (R54, R60). -/
structure State.Result (s t : State) (act : Mask) (pc : DWord) (rs : List ResWord) (fl : Flags) : Prop where
  cabinet : ∀ r ∈ rs, isCab r.dst = true → ∀ l < 32, t.warp.valueOf r.dst l = if act.has l then r.val l else s.warp.valueOf r.dst l
  cabShape : ∀ r ∈ rs, isCab r.dst = true → t.warp.shapeOf r.dst = resultShape act (resultOf act r.val) r.nom
  drawer : ∀ r ∈ rs, isDrawer r.dst = true → ∀ l < 32, t.warp.valueOf r.dst l = if act.has l then r.val l else s.warp.valueOf r.dst l
  drawerValid : ∀ r ∈ rs, isDrawer r.dst = true → (t.warp.rawSource r.dst).2 = (s.warp.rawSource r.dst).2 ||| act
  latch : ∀ k < 3, s.warp.hints.unpinned.head? = some k → ∀ r, rs.head? = some r → ∀ l < 32, act.has l = true →
    laneOf (t.warp.latch.getD k Slot.fresh).lanes l = r.val l ∧ (t.warp.latch.getD k Slot.fresh).valid = act
  pinned : ∀ k < 3, k ∉ s.warp.hints.unpinned → t.warp.latch.getD k Slot.fresh = s.warp.latch.getD k Slot.fresh
  shifted : ∀ j k m, s.warp.hints.unpinned[j]? = some k → s.warp.hints.unpinned[j + 1]? = some m → rs ≠ [] →
    t.warp.latch.getD m Slot.fresh = s.warp.latch.getD k Slot.fresh
  flags : t.warp.fpstat = orFlags s.warp.fpstat fl
  pcs : ∀ l < 32, t.warp.pcOf l = if act.has l then pc + 4#64 else s.warp.pcOf l
  otherCab : ∀ c, isCab c = true → (∀ r ∈ rs, r.dst ≠ c) → t.warp.shapeOf c = s.warp.shapeOf c ∧ ∀ l < 32, t.warp.valueOf c l = s.warp.valueOf c l
  otherDead : 8 ≤ s.warp.hints.lifePos → ∀ c, isCab c = true → (∀ r ∈ rs, r.dst ≠ c) →
    (t.warp.cab.getD c.toNat Reg.fresh).dead = (s.warp.cab.getD c.toNat Reg.fresh).dead
  otherDrawer : ∀ c, isDrawer c = true → (∀ r ∈ rs, r.dst ≠ c) →
    t.warp.drawer.getD (c.toNat - 0xF0) Slot.fresh = s.warp.drawer.getD (c.toNat - 0xF0) Slot.fresh
  special : t.warp.fpmode = s.warp.fpmode ∧ t.warp.chan = s.warp.chan ∧ t.warp.tsize = s.warp.tsize
  region : t.warp.region = s.warp.region ∧ t.warp.spill = s.warp.spill ∧ t.warp.perturb = s.warp.perturb ∧ t.warp.exited = s.warp.exited
  elsewhere : t = { s with warp := t.warp }

/-- Where `i` issues with nothing to stop it and its result may be written, exec answers a next state that holds the result. -/
def Gives (s : State) (i : Instr) (f : Form) (act : Mask) (pc : DWord) (rs : List ResWord) (fl : Flags) : Prop :=
  s.Issues i f act pc → Warp.takesAll act rs (s.warp.markDead f) → ∃ t, exec i s = .next t ∧ State.Result s t act pc rs fl

/-- The value of a function of one source in a lane; its token where it is poisoned (R117). -/
def Warp.un (w : Warp) (a : Code) (g : Word → Word) (l : Nat) : Val := orToken [w.valueOf a l] (g (w.valueOf a l).bits)
/-- The value of a function of two sources in a lane; the token of the first poisoned one (R117). -/
def Warp.bin (w : Warp) (a b : Code) (g : Word → Word → Word) (l : Nat) : Val :=
  orToken [w.valueOf a l, w.valueOf b l] (g (w.valueOf a l).bits (w.valueOf b l).bits)
/-- The value of a function of three sources in a lane; the token of the first poisoned one (R117). -/
def Warp.tern (w : Warp) (a b c : Code) (g : Word → Word → Word → Word) (l : Nat) : Val :=
  orToken [w.valueOf a l, w.valueOf b l, w.valueOf c l] (g (w.valueOf a l).bits (w.valueOf b l).bits (w.valueOf c l).bits)
/-- Class "every other instruction" of R47: U where every source is U, else G. -/
def everyOther (ss : List Shape) : Shape := if ss.all (· == .u) then .u else .g
/-- Class "additive" of R47: G where a source is G, U where every source is U, else A. -/
def additive (ss : List Shape) : Shape := if ss.any (· == .g) then .g else if ss.all (· == .u) then .u else .a
/-- Whether the preceding MOD asks for saturation (R63). -/
def Warp.sat (w : Warp) : Bool := (w.hints.mod.map ModF.sat).getD false
/-- S(x) for V = 0 and N(x) for V = 1 (R119). -/
def readAs (v : BitVec 1) (x : Word) : Int := if v = 0#1 then x.toInt else x.toNat
/-- The least and the greatest value of the signed range (V = 0) or the natural range (V = 1). -/
def rangeOf (v : BitVec 1) : Int × Int := if v = 0#1 then (-2147483648, 2147483647) else (0, 4294967295)
/-- Res(x) of R119: x modulo 2^32, or under SAT the nearest value of the range of V. -/
def saturated (sat : Bool) (v : BitVec 1) (x : Int) : Word :=
  BitVec.ofInt 32 (if sat then max (rangeOf v).1 (min (rangeOf v).2 x) else x)
/-- The flag SAT where the clamp of R119 changes the value. -/
def satFlag (sat : Bool) (v : BitVec 1) (x : Int) : Flags := if sat ∧ (x < (rangeOf v).1 ∨ (rangeOf v).2 < x) then flSAT else 0#6
/-- The flags of a lane-wise instruction: a lane with a poisoned source raises none (R112, R117). -/
def Warp.flagged (w : Warp) (cs : List Code) (act : Mask) (g : Nat → Flags) : Flags :=
  flagsOf act fun l => if cs.any (fun c => (w.valueOf c l).psn) then 0#6 else g l

/-- What an issue of an instruction without a result leaves of its warp (R56, R310): the active lanes are at `next`; the registers keep their
lanes and shapes; at a deschedule point the drawer and the latch become invalid, and elsewhere they keep their values; FPMODE, FPSTAT,
CHAN and the partition register keep theirs. The dead bit of a register may be set by a LIFE mark (R54, R60). -/
structure Warp.Keeps (w x : Warp) (act : Mask) (next : Nat → DWord) (point : Bool) : Prop where
  pcs : ∀ l < 32, x.pcOf l = if act.has l then next l else w.pcOf l
  cabinet : ∀ c, isCab c = true → x.shapeOf c = w.shapeOf c ∧ ∀ l < 32, x.valueOf c l = w.valueOf c l
  dead : 8 ≤ w.hints.lifePos → ∀ c, isCab c = true → (x.cab.getD c.toNat Reg.fresh).dead = (w.cab.getD c.toNat Reg.fresh).dead
  drawer : if point then ∀ k, (x.drawer.getD k Slot.fresh).valid = 0#32 else x.drawer = w.drawer
  latch : if point then ∀ k, (x.latch.getD k Slot.fresh).valid = 0#32 else x.latch = w.latch
  special : x.fpmode = w.fpmode ∧ x.fpstat = w.fpstat ∧ x.chan = w.chan ∧ x.tsize = w.tsize
/-- Such an instruction that touches nothing outside its warp, nor its spill table. -/
structure State.Stays (s t : State) (act : Mask) (next : Nat → DWord) (point : Bool) : Prop where
  keeps : s.warp.Keeps t.warp act next point
  spill : t.warp.spill = s.warp.spill
  elsewhere : t = { s with warp := t.warp }

/-- A read of device memory by the issuing warp meets nothing but memory: no sector holds an error (R396), no workgroup maps a page
(R206), no injection is armed (R400), no store of the warp waits in its core's queue (R236), none of another warp that a release has
ordered (R259), and the next relaxed load is performed when it issues (model; log 72). -/
structure State.Plain (s : State) : Prop where
  errors : s.svc.errors = []
  mapped : ∀ pa, s.locate pa = none
  quiet : (s.ctx s.myTag).injArm = false
  left : s.drained s.warp.ref = true
  unordered : s.cores.all (fun c => c.storeQ.all fun e => e.upto == 0) = true
  prompt : s.slack = false

/-- A run of at most four bytes of a memory as a lane reads it: the token of its sector where that is poisoned (R199). -/
def Memory.readVal (m : Memory) (a n : Nat) : Val := match m.token a with
  | some t => Val.poison t
  | none => Val.clean (BitVec.ofNat 32 (m.nat a n))

/-- The log and the applied vectors of the five dies fit together (R263): a die has applied its own writes, and no die counts more writes of
a die than that die has made. -/
structure DevMem.shaped (d : DevMem) : Prop where
  dies : d.vec.length = 5 ∧ ∀ v ∈ d.vec, v.length = 5
  own : ∀ l ∈ d.log, l.origin < 5 ∧ d.hasApplied l.origin l = true
  counts : ∀ e < 5, ∀ k < 5, d.count e k ≤ d.count k k

end Sys2Proof.Machine
end

