-- ==== Sys2Proof/Certificates/Slice0/Obligations.lean ====
section
/-!
DEFINITION. The statements about the model, each from the numbered rules of the manual.
-/
open Sys2Proof Sys2Proof.Machine

/-- R403, R349, R355, R319, R356, R374, R398, R193, R199: what reset leaves. Memory lists nothing and has its canonical form, the die cycle counters
are 0, no launch, workgroup or copy stands, no program context is live and the firmware context is, every queue is disabled with its reset values,
every event counter, service counter and mailbox register is 0, and the frame table has no entry other than its reset value. R25, R70: a warp that
begins a launch starts at its kernel entry with every cabinet register 0, U and not dead, nothing valid in drawer and latch, partition 32, the region-
poison flag clear and its special registers at their reset values. Model's choice (log 1, log 7): what memory lists at reset, and the node number 0.
-/
def Obligations.ResetState : Prop :=
  let s := State.reset
  (s.memWf = true ∧ s.mem.shaped ∧ s.mem.log = [] ∧ (∀ a, s.mem.base.byte a = 0#8 ∧ s.mem.base.token a = none)) ∧
  ((∀ d, s.ctr d = 0) ∧ s.launches = [] ∧ s.wgs = [] ∧ s.copies = [] ∧ s.smaps = [] ∧ s.inputs = [] ∧ s.svc.powered = true ∧ s.svc.frames = []) ∧
  (s.ctxs.length = 64 ∧ (s.ctx 0).state = 1 ∧ (s.ctx 0).func = 29 ∧ (∀ t, 1 ≤ t → (s.ctx t).state = 0) ∧
    ∀ t, (s.ctx t).roots = [none, none, none] ∧ (s.ctx t).ectr = List.replicate 64 0#32 ∧ (s.ctx t).csEn = false ∧ (s.ctx t).csSeq = 0#32 ∧
      (s.ctx t).eqEn = false ∧ (s.ctx t).injArm = false ∧ (s.ctx t).srSeq = 0 ∧ (s.ctx t).srDone = 0) ∧
  (s.queues.length = 256 ∧ ∀ q ∈ s.queues, q.en = false ∧ q.drain = false ∧ q.base = 0#64 ∧ q.place = 0#16 ∧ q.ctx = 0 ∧ q.weight = 1 ∧ q.widx = 0#32 ∧ q.ridx = 0#32) ∧
  (s.svc.funcs.length = 18 ∧ ∀ f ∈ s.svc.funcs, f.mbreq = List.replicate 16 0#32 ∧ f.busy = false ∧ f.status = 0 ∧ f.result = 0#32 ∧ f.isolated = false) ∧ s.svc.holder = 0 ∧
  s.svc.mailbox = [] ∧ s.fabric.node = 0 ∧
  ∀ (l : Launch) (wg k quad base : Nat),
    let w := Warp.begin l wg k quad base
    (∀ i < 32, w.pcOf i = BitVec.ofNat 64 l.krec.entry) ∧ (∀ c, isCab c = true → w.shapeOf c = .u ∧ (w.cab.getD c.toNat Reg.fresh).dead = false ∧ ∀ i < 32, w.valueOf c i = Val.zero) ∧
    (∀ x ∈ w.drawer, x.valid = 0#32) ∧ (∀ x ∈ w.latch, x.valid = 0#32) ∧ w.tsize = 32 ∧ w.region.flag = false ∧ w.region.opened = false ∧
    w.fpmode = 1#32 ∧ w.fpstat = 0#32 ∧ w.chan = 0#32

/-- R82 to R89: words of the manual's own examples, one or more of every family of the table, are the instructions they stand for, and 0x00000000 and
0xEE000000 are words of no instruction (R78, R79). -/
def Obligations.DecodeExamples : Prop :=
  decodeWord 0x02000000#32 = .instr .nop ∧ decodeWord 0x08100002#32 = .instr (.bnz 8#8 2#17) ∧ decodeWord 0x1C122000#32 = .instr (.sset 9#8 0x40#10) ∧
  decodeWord 0x20001234#32 = .instr (.ximmL 0x1234#16) ∧ decodeWord 0x24000002#32 = .instr (.life 0#8 2#16) ∧ decodeWord 0x28000D0C#32 = .instr (.scale 0x0D#8 0x0C#8) ∧
  decodeWord 0x32040064#32 = .instr (.movi 2#8 100#17) ∧ decodeWord 0x40060204#32 = .instr (.iadd 3#8 1#8 2#8 0#1) ∧ decodeWord 0x4E0607FF#32 = .instr (.iaddi 3#8 3#8 0x1FF#9) ∧
  decodeWord 0x5C10067F#32 = .instr (.logi 8#8 3#8 0#2 0x7F#7) ∧ decodeWord 0x701409E3#32 = .instr (.lgetRot 10#8 4#8 0xF1#8) ∧ decodeWord 0x75E41004#32 = .instr (.wredMax 0xF2#8 8#8 0#1) ∧
  decodeWord 0x860C0407#32 = .instr (.fmaL 6#8 2#8 3#8) ∧ decodeWord 0x920612F0#32 = .instr (.cvt 3#8 9#8 7#4 8#4) ∧ decodeWord 0xA2060206#32 = .instr (.sfuExp2 3#8 1#8) ∧
  decodeWord 0xA9E01400#32 = .instr (.smxm 0xF0#8 10#8) ∧ decodeWord 0xB01008A4#32 = .instr (.ld 8#8 4#8 1#2 2#3 1#2 0#1 0#1) ∧ decodeWord 0xB8140804#32 = .instr (.atom 10#8 4#8 0#2 0#4 2#2 0#1) ∧
  decodeWord 0xD0505840#32 = .instr (.xcopyG2s 40#8 44#8 8#6) ∧ decodeWord 0xD6686401#32 = .instr (.twaitAny 52#8 50#8) ∧ decodeWord 0xE0602819#32 = .instr (.mloop 3#4 0#4 0x14#8 0x0C#8 1#1) ∧
  decodeWord 0xE83C2A00#32 = .instr (.mget 30#8 21#8 0#4) ∧ decodeWord 0xF8000000#32 = .instr .rgn ∧ decodeWord 0xFA800002#32 = .instr (.commitB 2#17) ∧
  decodeWord 0xFC0C0602#32 = .instr (.pinfoCause 6#8 3#8) ∧ decodeWord 0xF0000003#32 = .instr (.barArrive 3#4) ∧ decodeWord 0#32 = .suppressed .encoding ∧ decodeWord 0xEE000000#32 = .suppressed .encoding

/-- R74, R75, R78, R79, R82 to R89: the word of every well-formed instruction decodes to it, with every operand at every value that it may have; a
word that decodes to an instruction is that instruction's word, so that no two words are one instruction and no bit of a word is passed over; and a
word belongs to no instruction's OP exactly where its OP is unassigned. -/
def Obligations.EncodeDecode : Prop :=
  (∀ i : Instr, i.isWord = true → i.wf = true → decodeWord (encode i) = .instr i) ∧
  (∀ (w : Word) (i : Instr), decodeWord w = .instr i → i.isWord = true ∧ encode i = w) ∧
  ∀ w : Word, decodeWord w = .suppressed .encoding ↔ w.toNat / 2 ^ 25 ∈
    [0x00, 0x0F, 0x17, 0x1E, 0x1F, 0x37, 0x55, 0x56, 0x57, 0x5E, 0x5F, 0x66, 0x67, 0x6E, 0x6F, 0x77, 0x7F]

/-- R74, R198, R78: a step in which a warp fetches runs what the bytes at its PC stand for. Where the PC's page is mapped executable and neither its
sector nor the word is poisoned, the step is the meaning of the decoded instruction, or of the suppressed word, in the state that the fetch leaves.
What stands around it is named here: the time that passes, the choice of the warp, the first issue of a workgroup's residence; that a step in which a
context meets an error in its own dirty line delivers nothing but the kill that follows (R411); that a move which would change a line that the host
may cache waits for the host to give it up (R268); the order of requests within a cycle (R261); and, the model's own, whether the next relaxed load is
performed later (log 72). A wait whose line has been written tests again before anything else (R295). An input of the outside comes next (log 3). A
machine without power stops (R18), and one whose Safelight does not run does nothing of its own (R365). -/
def Obligations.StepRunsFetched : Prop :=
  let runs := fun (u : State) (around : Out → Out) (out : Out) =>
    ∀ (act : Mask) (pc : DWord) (x y : State) (lf : TlbEntry) (w : Word),
      u.warp.group = some (act, pc) → u.warp.mayIssue = true → u.warp.fetchHold = none →
      u.lookup (some (u.coreOf u.warp.ref.wg)) u.myDie u.myTag 0 pc false = (x, .leaf lf) → lf.ex = true →
      x.access u.myDie u.myTag (lf.frame + pc.toNat % 65536) { u.here act pc with addr := some (pc, 0xFFF8#16) } lf.mt = (y, none) →
      y.wordAt u.myDie (lf.frame + pc.toNat % 65536) = Val.clean w →
      let z := (y.modFocus fun v => { v with ir := none }).beganNow
      match decodeWord w with
      | .instr i => out = around (exec i z)
      | .suppressed k => out = around (exec (.suppressedWord k) z)
  ∀ s : State,
    (s.allWarps.find? s.retestDue = none →
      (∀ x rest, s.inputs = x :: rest → x.i = .instructionFetch → s.svc.runs = true → let b : State := { s.turn with inputs := rest, via := x.via }
        runs b (fun out => b.timed { at' := some b.warp.ref, i := .instructionFetch } (b.invalidating (b.orKilled out))) (step s)) ∧
      (∀ r, s.inputs = [] → s.svc.runs = true → s.moves = [{ at' := some r, i := .instructionFetch }] → let b := s.turn
        runs (b.focus r) (fun out => b.drawn (b.timed { at' := some r, i := .instructionFetch } (b.guarded (b.orKilled out)))) (step s)) ∧
      (s.inputs = [] → s.svc.runs = true → s.moves ≠ [] → let b := s.turn
        ∃ m ∈ s.moves, step s = b.drawn (b.timed m (b.guarded (b.orKilled (b.make m))))) ∧
      (s.inputs = [] → s.svc.runs = true → s.moves = [] → step s = .next s.turn)) ∧
    (∀ w, s.allWarps.find? s.retestDue = some w → s.svc.runs = true →
      step s = s.turn.invalidating (s.turn.orKilled (.next (s.turn.asWarp w.ref State.waitTest)))) ∧
    (s.inputs = [] → s.svc.powered = true → s.svc.safelight = false → step s = .next s.turn) ∧
    (s.inputs = [] → s.svc.powered = false → step s = .fault .unpowered) ∧
    (∀ t, t.svc.lost = none → s.orKilled (.next t) = .next t) ∧
    (∀ t die tag pa, t.svc.lost = some (die, tag, pa) → s.orKilled (.next t) = .next (s.killOwner die tag pa)) ∧
    (∀ t, (∀ l ∈ s.svc.directory, s.homeLine l = t.homeLine l) → s.guarded (.next t) = .next t ∧ s.invalidating (.next t) = .next t) ∧
    (∀ t l, l ∈ s.svc.directory → s.homeLine l ≠ t.homeLine l → ∃ u, s.guarded (.next t) = .next u ∧ u.mem = s.mem ∧ u.wgs = s.wgs ∧ u.warp = s.warp ∧
      ∃ k, (k, l) ∈ u.svc.backInv) ∧
    (∀ m t, (∀ e ∈ t.mem.log, ∃ x ∈ s.mem.log, x.origin = e.origin ∧ x.stamp = e.stamp) → s.timed m (.next t) = .next t) ∧
    (∀ t, ∃ b, s.drawn (.next t) = .next { t with slack := b }) ∧
    (s.svc.lost = none → ∀ t, step s = .next t → t.svc.lost = none)

/-- R199: in a memory in its canonical form a write of a byte is read back and leaves every other byte and every sector's token; poisoning or cleaning
a sector is read back and leaves every other sector and every byte; a sector write poisons, cleans or leaves the sector as the rule says, and of a
byte half of which is written the other half stays, which makes the write partial (R245); each of them keeps the canonical form; and memories that
read alike are equal. -/
def Obligations.MemoryReadsBack : Prop :=
  ∀ m : Memory, m.wf = true →
    let written := fun (w : SectorWrite) (k : Nat) => if w.half.getLsbD k then (w.data.getD k 0#8 &&& 0x0F#8) ||| (m.byte (w.addr + k) &&& 0xF0#8) else w.data.getD k 0#8
    (∀ a v, (m.setByte a v).wf = true ∧ (∀ x, (m.setByte a v).byte x = if x = a then v else m.byte x) ∧ ∀ x, (m.setByte a v).token x = m.token x) ∧
    (∀ a t, (m.mark a t).wf = true ∧ (∀ x, (m.mark a t).byte x = m.byte x) ∧ ∀ x, (m.mark a t).token x = if x / 32 = a / 32 then t else m.token x) ∧
    (∀ w : SectorWrite, w.addr % 32 = 0 → w.data.length ≤ 32 →
      (m.apply w).wf = true ∧
      (∀ x, x / 32 ≠ w.addr / 32 → (m.apply w).byte x = m.byte x ∧ (m.apply w).token x = m.token x) ∧
      (∀ t, w.poison = some t → (m.apply w).token w.addr = some t) ∧
      (w.poison = none → w.mask = 0xFFFFFFFF#32 → w.half = 0#32 → w.data.length = 32 →
        (m.apply w).token w.addr = none ∧ ∀ k < 32, (m.apply w).byte (w.addr + k) = written w k) ∧
      (w.poison = none → (w.mask ≠ 0xFFFFFFFF#32 ∨ w.half ≠ 0#32) → (m.apply w).token w.addr = m.token w.addr ∧
        (m.token w.addr ≠ none → m.apply w = m) ∧
        (m.token w.addr = none → w.data.length = 32 → ∀ k < 32, (m.apply w).byte (w.addr + k) = if w.mask.getLsbD k then written w k else m.byte (w.addr + k)))) ∧
    ∀ n : Memory, n.wf = true → (∀ a, m.byte a = n.byte a ∧ m.token a = n.token a) → m = n

/-- Every step keeps every memory of the device in its canonical form: no instruction and no event lists a byte twice, out of order or at the value
that an unlisted byte reads as (log 1; R199). -/
def Obligations.StepKeepsMemory : Prop :=
  ∀ s t : State, s.memWf = true → step s = .next t → t.memWf = true

/-- R372, R375, R376: Poison(cause) takes the context's sequence number and forms the token of the cause and of that number; SEQ rises by 1. With the
Contact Sheet disabled nothing else happens. With it enabled the entry of R376 is written to its place, on every die, before anything holds the token;
where the entry's page cannot be written the entry is dropped and counted. An instruction that has made a token of the cause already takes that one
(R215). -/
def Obligations.PoisonTokens : Prop :=
  ∀ (s : State) (tag : Nat) (c : Cause) (o : Origin),
    tag < s.ctxs.length →
    (∀ x, o.share.find? (fun x => x.1 == c.code) = some x → s.mkToken tag c o = (s, x.2)) ∧
    (o.share.find? (fun x => x.1 == c.code) = none →
    let q := s.ctx tag
    let n := q.csSeq.toNat
    let r := s.mkToken tag c o
    let u := s.modCtx tag fun c => { c with csSeq := c.csSeq + 1 }
    let off := q.csBase + BitVec.ofNat 64 (n % 65536 * 64)
    r.2.toNat / 2 ^ 26 = c.code ∧ r.2.toNat / 2 ^ 16 % 2 ^ 10 = n / 65536 % 1024 ∧ r.2.toNat % 2 ^ 16 = n % 65536 ∧
    (r.1.ctx tag).csSeq = q.csSeq + 1 ∧
    (q.csEn = false → r.1 = u) ∧
    (∀ lf, q.csEn = true → (u.lookup none o.die tag 0 off true).2 = .leaf lf →
      let pa := lf.frame + off.toNat % 65536
      pa % 32 = 0 → (∀ p, s.locate p = none) → s.mem.shaped → s.memWf = true →
      (r.1.ctx tag).csDrop = q.csDrop ∧
      ∀ e < 5, ∀ k < 64, (r.1.mem.view e).byte (pa + k) = (csEntry c.code n (s.ctr o.die) o).getD k 0#8 ∧ (r.1.mem.view e).token (pa + k) = none) ∧
    ∀ f, q.csEn = true → (u.lookup none o.die tag 0 off true).2 = .fault f →
      (r.1.ctx tag).csDrop = min (q.csDrop + 1) 65535 ∧ (f ≠ .pageMiss → r.1.mem = s.mem))

/-- R119, R120: IADD, ISUB and IADDI give the sum or difference of their sources read under V, modulo 2^32 or clamped under SAT. Their shape is
additive, and "every other" under SAT; IADDI's immediate counts as U. R119, R120: IMUL gives the low word of the product of its sources, or the
product clamped under SAT; IMULH gives bits 63 to 32 of the product and ignores SAT; IMAC adds the product to its destination, read as the third
source. IMUL scales a shape: the product of an A and a U is A. R121, R122: IADDC.CO is the carry out of a sum, IADDC.CI adds bit 0 of its destination,
and LEA adds an index to a 64-bit base in a pair: the low word is additive in SA low and SB, the high word takes "every other" over all three sources.
-/
def Obligations.IntegerArithmetic : Prop :=
  (∀ (s : State) (act : Mask) (pc : DWord) (d a b : Code) (v : BitVec 1) (im : BitVec 9),
     let w := s.warp
     let sh := fun ss => if w.sat then everyOther ss else additive ss
     let res := fun (v : BitVec 1) (g : Word → Word → Int) => w.bin a b fun x y => saturated w.sat v (g x y)
     let fl := fun (v : BitVec 1) (g : Word → Word → Int) => w.flagged [a, b] act fun l =>
       satFlag w.sat v (g (w.valueOf a l).bits (w.valueOf b l).bits)
     Gives s (.iadd d a b v) (formT d a b) act pc [⟨d, sh [w.shapeOf a, w.shapeOf b], res v fun x y => readAs v x + readAs v y⟩]
       (fl v fun x y => readAs v x + readAs v y) ∧
     Gives s (.isub d a b v) (formT d a b) act pc [⟨d, sh [w.shapeOf a, w.shapeOf b], res v fun x y => readAs v x - readAs v y⟩]
       (fl v fun x y => readAs v x - readAs v y) ∧
     Gives s (.iaddi d a im) (formU d a) act pc [⟨d, sh [w.shapeOf a], w.un a fun x => saturated w.sat 0#1 (x.toInt + im.toInt)⟩]
       (w.flagged [a] act fun l => satFlag w.sat 0#1 ((w.valueOf a l).bits.toInt + im.toInt))) ∧
  (∀ (s : State) (act : Mask) (pc : DWord) (d a b : Code) (v : BitVec 1),
     let w := s.warp
     let p := fun l => readAs v (w.valueOf a l).bits * readAs v (w.valueOf b l).bits
     let sa := w.shapeOf a
     let sb := w.shapeOf b
     let scaled : Shape := if sa = .u ∧ sb = .u then .u else if (sa = .a ∧ sb = .u) ∨ (sa = .u ∧ sb = .a) then .a else .g
     Gives s (.imul d a b v) (formT d a b) act pc
       [⟨d, if w.sat then everyOther [sa, sb] else scaled, w.bin a b fun x y => saturated w.sat v (readAs v x * readAs v y)⟩]
       (w.flagged [a, b] act fun l => satFlag w.sat v (p l)) ∧
     Gives s (.imulh d a b v) (formT d a b) act pc
       [⟨d, everyOther [sa, sb], w.bin a b fun x y => (BitVec.ofInt 64 (readAs v x * readAs v y)).extractLsb' 32 32⟩] 0#6 ∧
     Gives s (.imac d a b v) { formT d a b with reads := [a, b, d], slotD := [d] } act pc
       [⟨d, everyOther [sa, sb, w.shapeOf d], w.tern a b d fun x y z => saturated w.sat v (readAs v z + readAs v x * readAs v y)⟩]
       (w.flagged [a, b, d] act fun l => satFlag w.sat v (readAs v (w.valueOf d l).bits + p l))) ∧
  (∀ (s : State) (act : Mask) (pc : DWord) (d a b : Code) (v : BitVec 1),
     let w := s.warp
     Gives s (.iaddcCo d a b) (formT d a b) act pc
       [⟨d, everyOther [w.shapeOf a, w.shapeOf b], w.bin a b fun x y => if x.toNat + y.toNat < 2 ^ 32 then 0#32 else 1#32⟩] 0#6 ∧
     Gives s (.iaddcCi d a b) { formT d a b with reads := [a, b, d] } act pc
       [⟨d, everyOther [w.shapeOf a, w.shapeOf b, w.shapeOf d],
         w.tern a b d fun x y z => BitVec.ofNat 32 (x.toNat + y.toNat + z.toNat % 2)⟩] 0#6 ∧
     ∀ lo hi, pairCodes a = [lo, hi] → ∀ dlo dhi, pairCodes d = [dlo, dhi] →
       let t := fun (x y z : Word) => BitVec.ofInt 64 (x.toNat + 2 ^ 32 * y.toNat + readAs v z)
       Gives s (.lea d a b v) { reads := [lo, hi, b], slotA := [lo, hi], slotB := [b], dsts := [dlo, dhi] } act pc
         [⟨dlo, additive [w.shapeOf lo, w.shapeOf b], w.tern lo hi b fun x y z => (t x y z).extractLsb' 0 32⟩,
          ⟨dhi, everyOther [w.shapeOf lo, w.shapeOf hi, w.shapeOf b], w.tern lo hi b fun x y z => (t x y z).extractLsb' 32 32⟩] 0#6)

/-- R124: the logic instructions and the four functions of LOGI, whose immediate is zero-extended; class "every other"; no flag. R123: a shift takes
its count as an unsigned number; a left or natural right shift by 32 or more gives 0, a signed right shift by 32 or more gives the sign in every bit;
SHI takes its count from the word, and rotates. ISHL and SHI.SHL of an A by a U stay A. -/
def Obligations.LogicAndShifts : Prop :=
  (∀ (s : State) (act : Mask) (pc : DWord) (d a b : Code) (im : BitVec 7),
     let w := s.warp
     let r := fun g => [ResWord.mk d (everyOther [w.shapeOf a, w.shapeOf b]) (w.bin a b g)]
     let k := fun g => [ResWord.mk d (everyOther [w.shapeOf a]) (w.un a fun x => g x (BitVec.ofNat 32 im.toNat))]
     Gives s (.and d a b) (formT d a b) act pc (r fun x y => x &&& y) 0#6 ∧
     Gives s (.or d a b) (formT d a b) act pc (r fun x y => x ||| y) 0#6 ∧
     Gives s (.xor d a b) (formT d a b) act pc (r fun x y => x ^^^ y) 0#6 ∧
     Gives s (.andn d a b) (formT d a b) act pc (r fun x y => x &&& ~~~y) 0#6 ∧
     Gives s (.logi d a 0#2 im) (formU d a) act pc (k fun x y => x &&& y) 0#6 ∧
     Gives s (.logi d a 1#2 im) (formU d a) act pc (k fun x y => x ||| y) 0#6 ∧
     Gives s (.logi d a 2#2 im) (formU d a) act pc (k fun x y => x ^^^ y) 0#6 ∧
     Gives s (.logi d a 3#2 im) (formU d a) act pc (k fun x y => x &&& ~~~y) 0#6) ∧
  (∀ (s : State) (act : Mask) (pc : DWord) (d a b : Code) (n : BitVec 5),
     let w := s.warp
     let sa := w.shapeOf a
     let left := fun (x : Word) (c : Nat) => BitVec.ofNat 32 (x.toNat * 2 ^ c)
     let rightS := fun (x : Word) (c : Nat) => BitVec.ofInt 32 (x.toInt / 2 ^ c)
     let rightN := fun (x : Word) (c : Nat) => BitVec.ofNat 32 (x.toNat / 2 ^ c)
     let ror := fun (x : Word) (c : Nat) => BitVec.ofNat 32 (x.toNat / 2 ^ c + x.toNat % 2 ^ c * 2 ^ (32 - c))
     Gives s (.ishl d a b) (formT d a b) act pc
       [⟨d, if w.shapeOf b = .u ∧ sa ≠ .g then sa else .g, w.bin a b fun x y => if y.toNat < 32 then left x y.toNat else 0#32⟩] 0#6 ∧
     Gives s (.ishr d a b 0#1) (formT d a b) act pc
       [⟨d, everyOther [sa, w.shapeOf b],
         w.bin a b fun x y => if y.toNat < 32 then rightS x y.toNat else if x.getLsbD 31 then 0xFFFFFFFF#32 else 0#32⟩] 0#6 ∧
     Gives s (.ishr d a b 1#1) (formT d a b) act pc
       [⟨d, everyOther [sa, w.shapeOf b], w.bin a b fun x y => if y.toNat < 32 then rightN x y.toNat else 0#32⟩] 0#6 ∧
     Gives s (.shi d a 0#2 n) (formU d a) act pc [⟨d, sa, w.un a fun x => left x n.toNat⟩] 0#6 ∧
     Gives s (.shi d a 1#2 n) (formU d a) act pc [⟨d, everyOther [sa], w.un a fun x => rightS x n.toNat⟩] 0#6 ∧
     Gives s (.shi d a 2#2 n) (formU d a) act pc [⟨d, everyOther [sa], w.un a fun x => rightN x n.toNat⟩] 0#6 ∧
     Gives s (.shi d a 3#2 n) (formU d a) act pc [⟨d, everyOther [sa], w.un a fun x => ror x n.toNat⟩] 0#6)

/-- R125: the lesser and the greater of two sources under V, their comparison, and SEL, which reads its destination as the condition: a lane with a
clean condition takes the value, or the token, of the source it selects alone, and a lane with a poisoned condition the token of the first poisoned
one of SA, SB and the condition. R126: BFE takes the field of min(w, 32 - pos) bits at pos out of SA, sign-extended or zero-extended, an empty field
being 0; BFI puts the low bits of SA into that field of the destination and keeps the destination's other bits. R127: the number of 1 bits, the number
of 0 bits above the highest 1 bit, the bits in reverse order, and the absolute value and the negation as Res of the exact integer. With SAT clear INEG
scales a shape. -/
def Obligations.SelectionAndBits : Prop :=
  (∀ (s : State) (act : Mask) (pc : DWord) (d a b : Code) (v : BitVec 1),
     let w := s.warp
     let sh := everyOther [w.shapeOf a, w.shapeOf b]
     let pick := fun l => if (w.valueOf d l).psn = true
       then orToken [w.valueOf a l, w.valueOf b l, w.valueOf d l] 0#32
       else if (w.valueOf d l).bits = 0#32 then w.valueOf b l else w.valueOf a l
     Gives s (.imin d a b v) (formT d a b) act pc [⟨d, sh, w.bin a b fun x y => BitVec.ofInt 32 (min (readAs v x) (readAs v y))⟩] 0#6 ∧
     Gives s (.imax d a b v) (formT d a b) act pc [⟨d, sh, w.bin a b fun x y => BitVec.ofInt 32 (max (readAs v x) (readAs v y))⟩] 0#6 ∧
     Gives s (.icmp d a b v) (formT d a b) act pc
       [⟨d, sh, w.bin a b fun x y => if readAs v x < readAs v y then 1#32 else if readAs v y < readAs v x then 4#32 else 2#32⟩] 0#6 ∧
     Gives s (.sel d a b) { formT d a b with reads := [a, b, d] } act pc
       [⟨d, everyOther [w.shapeOf a, w.shapeOf b, w.shapeOf d], pick⟩] 0#6) ∧
  (∀ (s : State) (act : Mask) (pc : DWord) (d a b : Code),
     let w := s.warp
     let pos := fun (y : Word) => y.toNat % 32
     let wid := fun (y : Word) => min (y.toNat / 256 % 64) (32 - y.toNat % 32)
     let field := fun (x y : Word) => x.toNat / 2 ^ pos y % 2 ^ wid y
     Gives s (.bfe d a b 1#1) (formT d a b) act pc
       [⟨d, everyOther [w.shapeOf a, w.shapeOf b], w.bin a b fun x y => BitVec.ofNat 32 (field x y)⟩] 0#6 ∧
     Gives s (.bfe d a b 0#1) (formT d a b) act pc
       [⟨d, everyOther [w.shapeOf a, w.shapeOf b], w.bin a b fun x y =>
         BitVec.ofInt 32 (if 2 * field x y < 2 ^ wid y then (field x y : Int) else if wid y = 0 then 0 else field x y - 2 ^ wid y)⟩] 0#6 ∧
     Gives s (.bfi d a b) { formT d a b with reads := [a, b, d] } act pc
       [⟨d, everyOther [w.shapeOf a, w.shapeOf b, w.shapeOf d], w.tern a b d fun x y z =>
         maskOf fun i => if pos y ≤ i ∧ i < pos y + wid y then x.getLsbD (i - pos y) else z.getLsbD i⟩] 0#6) ∧
  (∀ (s : State) (act : Mask) (pc : DWord) (d a : Code),
     let w := s.warp
     let one := everyOther [w.shapeOf a]
     Gives s (.iunaPopc d a) (formU d a) act pc
       [⟨d, one, w.un a fun x => BitVec.ofNat 32 ((Finset.range 32).filter fun i => x.getLsbD i = true).card⟩] 0#6 ∧
     Gives s (.iunaClz d a) (formU d a) act pc
       [⟨d, one, w.un a fun x => BitVec.ofNat 32 (if x = 0#32 then 32 else 31 - Nat.log2 x.toNat)⟩] 0#6 ∧
     Gives s (.iunaBrev d a) (formU d a) act pc [⟨d, one, w.un a fun x => x.reverse⟩] 0#6 ∧
     Gives s (.iunaIabs d a) (formU d a) act pc [⟨d, one, w.un a fun x => saturated w.sat 0#1 |x.toInt|⟩]
       (w.flagged [a] act fun l => satFlag w.sat 0#1 |(w.valueOf a l).bits.toInt|) ∧
     Gives s (.iunaIneg d a) (formU d a) act pc
       [⟨d, if w.sat then one else w.shapeOf a, w.un a fun x => saturated w.sat 0#1 (-x.toInt)⟩]
       (w.flagged [a] act fun l => satFlag w.sat 0#1 (-(w.valueOf a l).bits.toInt)))

/-- R65, R66: MOV copies a value with its shape, MOVG as general, MOVI writes its immediate sign-extended with shape U; SHAPE reports the shape, the
dead bit, an incomplete valid mask and poison of its source, reads nothing, and is U and never poisoned. R45, R50, R54, R66: what reading and writing
a general register gives where it does not hold a value. A read by MOV of a drawer entry or a latch in an active lane whose bit is clear yields one
STALE_OPERAND token for these lanes; of a cabinet register that is dead one DEAD_READ token, and of one at or above N one ILLEGAL_OPERAND token, for
every active lane; none of them is a flag event. A write by MOVI to a cabinet register at or above N stores nothing there, and the latch receives one
ILLEGAL_OPERAND token; one that would leave more than Gmax general registers stores one REG_BUDGET token in every lane with shape U, and the latch
receives it; both set the region-poison flag. A write of some lanes of a dead register gives the other lanes one DEAD_READ token. -/
def Obligations.Moves : Prop :=
  (∀ (s : State) (act : Mask) (pc : DWord) (d a : Code) (im : BitVec 17),
     let w := s.warp
     let info := fun (psn inval dead : Bool) (sh : Shape) => BitVec.ofNat 32
       ((if psn then 16 else 0) + (if inval then 8 else 0) + (if dead then 4 else 0) + (if sh = .u then 0 else if sh = .a then 1 else 2))
     let shape := fun x => Gives s (.shape d a) { reads := [], dsts := [d], late := [a] } act pc [⟨d, .u, fun _ => Val.clean x⟩] 0#6
     Gives s (.mov d a) (formU d a) act pc [⟨d, w.shapeOf a, w.valueOf a⟩] 0#6 ∧
     Gives s (.movg d a) (formU d a) act pc [⟨d, .g, w.valueOf a⟩] 0#6 ∧
     Gives s (.movi d im) { reads := [], dsts := [d] } act pc [⟨d, .u, fun _ => Val.clean (BitVec.ofInt 32 im.toInt)⟩] 0#6 ∧
     (isCab a = true → a.toNat < w.n →
       shape (info ((w.rawSource a).1.lanes.any Val.psn) false (w.cab.getD a.toNat Reg.fresh).dead (w.shapeOf a))) ∧
     (isDrawer a = true → shape (info ((List.range 32).any fun l => (w.rawSource a).2.has l && (w.valueOf a l).psn)
       ((w.rawSource a).2 != fullMask) false (w.shapeOf a)))) ∧
  (∀ (s : State) (act : Mask) (pc : DWord) (d a : Code) (im : BitVec 17),
     let w := s.warp
     let tok := fun (c : Cause) => tokenBits c.code (s.ctx s.myTag).csSeq.toNat
     let goes := fun (i : Instr) (f : Form) => w.group = some (act, pc) ∧ w.mayIssue = true ∧ i.wf = true ∧ w.blocked (f.reads ++ f.late) f.dsts = false ∧ s.svc.wordErrors = []
     let one := fun (t : State) => (∀ l < 32, t.warp.pcOf l = if act.has l then pc + 4#64 else w.pcOf l) ∧ t.warp.fpstat = w.fpstat ∧
       (∀ c, isCab c = true → c ≠ d → t.warp.shapeOf c = w.shapeOf c ∧ ∀ l < 32, t.warp.valueOf c l = w.valueOf c l) ∧
       ((s.ctx s.myTag).csEn = false → t = { s.modCtx s.myTag (fun c => { c with csSeq := c.csSeq + 1 }) with warp := t.warp })
     let reads := fun (c : Cause) (bad : Mask) => ∃ t, exec (.mov d a) s = .next t ∧ one t ∧ t.warp.region = w.region ∧
       ∀ l < 32, act.has l = true → t.warp.valueOf d l = if bad.has l then Val.poison (tok c) else w.valueOf a l
     (isDrawer d = true → goes (.mov d a) (formU d a) →
       (isDrawer a = true ∨ isLatch a = true → act &&& ~~~ (w.rawSource a).2 ≠ 0#32 → reads .staleOperand (act &&& ~~~ (w.rawSource a).2)) ∧
       (isCab a = true → a.toNat < w.n → (w.cab.getD a.toNat Reg.fresh).dead = true → reads .deadRead act) ∧
       (isCab a = true → w.n ≤ a.toNat → reads .illegalOperand act)) ∧
     (let f : Form := { reads := [], dsts := [d] }
      let x := Val.clean (BitVec.ofInt 32 im.toInt)
      let old := w.cab.getD d.toNat Reg.fresh
      let tooMany := w.gmax < w.generalCount - (if old.shape = .g ∧ old.dead = false then 1 else 0) + 1
      let inLatch := fun (t : State) (v : Val) => ∀ k < 3, w.hints.unpinned.head? = some k → (t.warp.latch.getD k Slot.fresh).valid = act ∧
        ∀ l < 32, act.has l = true → laneOf (t.warp.latch.getD k Slot.fresh).lanes l = v
      isCab d = true → goes (.movi d im) f →
       (w.n ≤ d.toNat → ∃ t, exec (.movi d im) s = .next t ∧ one t ∧ t.warp.region.flag = true ∧ inLatch t (Val.poison (tok .illegalOperand)) ∧
         t.warp.shapeOf d = w.shapeOf d ∧ ∀ l < 32, t.warp.valueOf d l = w.valueOf d l) ∧
       (d.toNat < w.n → act ≠ fullMask → tooMany → ∃ t, exec (.movi d im) s = .next t ∧ one t ∧ t.warp.region.flag = true ∧
         inLatch t (Val.poison (tok .regBudget)) ∧ t.warp.shapeOf d = .u ∧ ∀ l < 32, t.warp.valueOf d l = Val.poison (tok .regBudget)) ∧
       (d.toNat < w.n → act ≠ fullMask → ¬ tooMany → old.dead = true → ∃ t, exec (.movi d im) s = .next t ∧ one t ∧ t.warp.region = w.region ∧
         inLatch t x ∧ t.warp.shapeOf d = .g ∧ (t.warp.cab.getD d.toNat Reg.fresh).dead = false ∧
         ∀ l < 32, t.warp.valueOf d l = if act.has l then x else Val.poison (tok .deadRead))))

/-- R139 to R141, R143: FP32 addition, subtraction, multiplication, fused multiply-add with the addend in the destination or in l0, minimum, maximum,
comparison and rounding to an integer, each once rounded in the mode in force, with the flags of its clean active lanes. -/
def Obligations.FloatArithmetic : Prop :=
  ∀ (s : State) (act : Mask) (pc : DWord) (d a b : Code) (v : BitVec 1),
    let w := s.warp
    let env := (w.iss act pc).env
    let n := fun c l => (w.valueOf c l).bits.toNat
    let two := fun i (g : Nat → Nat → Delivered) => Gives s i (formT d a b) act pc
      [⟨d, everyOther [w.shapeOf a, w.shapeOf b], w.bin a b fun x y => BitVec.ofNat 32 (g x.toNat y.toNat).1⟩]
      (w.flagged [a, b] act fun l => (g (n a l) (n b l)).2)
    let fma := fun i f c => Gives s i f act pc
      [⟨d, everyOther [w.shapeOf a, w.shapeOf b, w.shapeOf c], w.tern a b c fun x y z => BitVec.ofNat 32 (fMa fp32 env x.toNat y.toNat z.toNat).1⟩]
      (w.flagged [a, b, c] act fun l => (fMa fp32 env (n a l) (n b l) (n c l)).2)
    two (.fadd d a b) (fAdd fp32 env) ∧ two (.fsub d a b) (fSub fp32 env) ∧ two (.fmul d a b) (fMul fp32 env) ∧
    two (.fmin d a b) (fMinMax false env.ftz) ∧ two (.fmax d a b) (fMinMax true env.ftz) ∧ two (.fcmp d a b v) (fCmp (v == 1#1)) ∧
    fma (.fmaA d a b) { formT d a b with reads := [a, b, d], slotD := [d] } d ∧
    fma (.fmaL d a b) { formT d a b with reads := [a, b, 0xF8#8] } 0xF8#8 ∧
    Gives s (.frnd d a) (formU d a) act pc [⟨d, everyOther [w.shapeOf a], w.un a fun x => BitVec.ofNat 32 (fRnd env.rm x.toNat).1⟩]
      (w.flagged [a] act fun l => (fRnd env.rm (n a l)).2)

/-- R105, R139: an FP32 product of finite operands whose exact value a finite FP32 value is not exceeded by is that exact value rounded once in the
mode of the instruction: to the nearest value with a tie to the even fraction (1) or to the larger magnitude (5), to the nearest not larger in
magnitude (2), not less (3) or not greater (4). The same of FADD, FSUB and FMA, whose exact values are the sum, the difference and the product plus
the addend. -/
def Obligations.FloatRounding : Prop :=
  let finite := fun p : Nat => p < 2 ^ 32 ∧ p / 2 ^ 23 % 256 ≠ 255
  let val := fun p : Nat => (if p / 2 ^ 31 = 1 then (-1 : ℚ) else 1) *
    (if p / 2 ^ 23 % 256 = 0 then ((p % 2 ^ 23 : Nat) : ℚ) / 2 ^ 149
     else ((2 ^ 23 + p % 2 ^ 23 : Nat) : ℚ) * 2 ^ (p / 2 ^ 23 % 256) / 2 ^ 150)
  let rounded := fun (rm : Nat) (x : ℚ) (p : Nat) => finite p ∧
    (rm = 1 → ∀ z, finite z → |val p - x| ≤ |val z - x| ∧ (|val p - x| = |val z - x| → val z ≠ val p → p % 2 = 0)) ∧
    (rm = 2 → |val p| ≤ |x| ∧ 0 ≤ val p * x ∧ ∀ z, finite z → |val z| ≤ |x| → 0 ≤ val z * x → |val z| ≤ |val p|) ∧
    (rm = 3 → x ≤ val p ∧ ∀ z, finite z → x ≤ val z → val p ≤ val z) ∧
    (rm = 4 → val p ≤ x ∧ ∀ z, finite z → val z ≤ x → val z ≤ val p) ∧
    (rm = 5 → ∀ z, finite z → |val p - x| ≤ |val z - x| ∧ (|val p - x| = |val z - x| → |val z| ≤ |val p|))
  let most := val 0x7F7FFFFF
  ∀ (env : FpEnv) (x y z : Nat), env.ftz = false → 1 ≤ env.rm → env.rm ≤ 5 → finite x → finite y → finite z →
    (|val x * val y| ≤ most → rounded env.rm (val x * val y) (fMul fp32 env x y).1) ∧
    (|val x + val y| ≤ most → rounded env.rm (val x + val y) (fAdd fp32 env x y).1) ∧
    (|val x - val y| ≤ most → rounded env.rm (val x - val y) (fSub fp32 env x y).1) ∧
    (|val x * val y + val z| ≤ most → rounded env.rm (val x * val y + val z) (fMa fp32 env x y z).1)

/-- R142, R144: FCLASS writes one bit for the class of its source; FUNA.FABS clears bit 31 and FUNA.FNEG inverts it, and a NaN gives the canonical
NaN; none of them raises a flag. -/
def Obligations.FloatSignAndClass : Prop :=
  (∀ (s : State) (act : Mask) (pc : DWord) (d a : Code),
    let w := s.warp
    let one := fun i (g : Word → Word) => Gives s i (formU d a) act pc [⟨d, everyOther [w.shapeOf a], w.un a g⟩] 0#6
    let e := fun (x : Word) => x.toNat / 2 ^ 23 % 256
    let m := fun (x : Word) => x.toNat % 2 ^ 23
    let isNaN := fun (x : Word) => e x = 255 ∧ m x ≠ 0
    let bit := fun (x : Word) => if e x = 255 then (if m x = 0 then (if x.getLsbD 31 then 0 else 7) else if x.getLsbD 22 then 9 else 8)
      else if e x = 0 then (if m x = 0 then (if x.getLsbD 31 then 3 else 4) else if x.getLsbD 31 then 2 else 5)
      else if x.getLsbD 31 then 1 else 6
    one (.fclass d a) (fun x => 1#32 <<< bit x) ∧
    one (.funaFabs d a) (fun x => if isNaN x then 0x7FC00000#32 else x &&& 0x7FFFFFFF#32) ∧
    one (.funaFneg d a) (fun x => if isNaN x then 0x7FC00000#32 else x ^^^ 0x80000000#32)) ∧
  decodeWord 0x8E020000#32 = .instr (.fclass 1#8 0#8) ∧ decodeWord 0x9A040402#32 = .instr (.funaFneg 2#8 2#8)

/-- R145: CVT converts between the formats that its codes name; FTZ never applies. R146: the packed instructions work on the two halves of their
sources, in FP16 for V = 0 and BF16 for V = 1. -/
def Obligations.ConvertAndPacked : Prop :=
  ∀ (s : State) (act : Mask) (pc : DWord) (d a b : Code) (v : BitVec 1) (to' from' : BitVec 4),
    let w := s.warp
    let env := (w.iss act pc).env
    let n := fun c l => (w.valueOf c l).bits.toNat
    let f := if v = 0#1 then fp16 else bf16
    let halves := fun (g : Nat → Delivered) => BitVec.ofNat 32 ((g 0).1 % 65536 + (g 1).1 % 65536 * 65536)
    let both := fun (g : Nat → Delivered) => (g 0).2 ||| (g 1).2
    let h := fun (x : Nat) (e : Nat) => x / 2 ^ (16 * e) % 65536
    let two := fun i (g : Fmt → FpEnv → Nat → Nat → Delivered) => Gives s i (formT d a b) act pc
      [⟨d, everyOther [w.shapeOf a, w.shapeOf b], w.bin a b fun x y => halves fun e => g f env (h x.toNat e) (h y.toNat e)⟩]
      (w.flagged [a, b] act fun l => both fun e => g f env (h (n a l) e) (h (n b l) e))
    Gives s (.cvt d a to' from') (formU d a) act pc
      [⟨d, everyOther [w.shapeOf a], w.un a fun x => BitVec.ofNat 32 (convertFmt { env with ftz := false } to'.toNat from'.toNat x.toNat).1⟩]
      (w.flagged [a] act fun l => (convertFmt { env with ftz := false } to'.toNat from'.toNat (n a l)).2) ∧
    two (.hadd2 d a b v) fAdd ∧ two (.hmul2 d a b v) fMul ∧
    Gives s (.hfma2 d a b v) { formT d a b with reads := [a, b, d] } act pc
      [⟨d, everyOther [w.shapeOf a, w.shapeOf b, w.shapeOf d],
        w.tern a b d fun x y z => halves fun e => fMa f env (h x.toNat e) (h y.toNat e) (h z.toNat e)⟩]
      (w.flagged [a, b, d] act fun l => both fun e => fMa f env (h (n a l) e) (h (n b l) e) (h (n d l) e))

/-- R113, R147 to R150: a dot product adds the exact products of its elements to the accumulator in its drawer entry and rounds once. DOT2 takes one
word of each source, DOT8 and DOT4 take four; a scaled DOT multiplies each product by the two scale bytes that SCALE names. -/
def Obligations.DotProducts : Prop :=
  ∀ (s : State) (act : Mask) (pc : DWord) (sel : BitVec 2) (d : BitVec 3) (a b : Code) (v : BitVec 1),
    let w := s.warp
    let dst : Code := 0xF0#8 + d.setWidth 8
    let env := (w.iss act pc).env
    let quad := fun i f (fm : Fmt) (wd n : Nat) (scales : List Code) (k : Nat → Option Int) =>
      let srcs := quadCodes a ++ quadCodes b ++ [dst] ++ scales
      let r := fun l => dotLane env fm wd n ((quadCodes a).map fun c => (w.valueOf c l).bits) ((quadCodes b).map fun c => (w.valueOf c l).bits)
        (w.valueOf dst l).bits.toNat (k l)
      Gives s i f act pc [⟨dst, everyOther (srcs.map w.shapeOf), fun l => orToken (srcs.map fun c => w.valueOf c l) (BitVec.ofNat 32 (r l).1)⟩]
        (w.flagged srcs act fun l => (r l).2)
    let plain : Form := { reads := quadCodes a ++ quadCodes b ++ [dst], slotA := quadCodes a, slotB := quadCodes b, dsts := [dst] }
    Gives s (.dot2 d a b v) { formT dst a b with reads := [a, b, dst] } act pc
      [⟨dst, everyOther [w.shapeOf a, w.shapeOf b, w.shapeOf dst], w.tern a b dst fun x y z =>
        BitVec.ofNat 32 (dotLane env (if v = 0#1 then fp16 else bf16) 16 2 [x] [y] z.toNat (some 0)).1⟩]
      (w.flagged [a, b, dst] act fun l => (dotLane env (if v = 0#1 then fp16 else bf16) 16 2 [(w.valueOf a l).bits] [(w.valueOf b l).bits]
        (w.valueOf dst l).bits.toNat (some 0)).2) ∧
    quad (.dot8 sel d a b 0#1) plain f8a 8 16 [] (fun _ => some 0) ∧
    quad (.dot4 sel d a b 0#1) plain f4 4 32 [] (fun _ => some 0) ∧
    ∀ sa sb, w.hints.scale = some (sa, sb) →
      let scaled : Form := { plain with reads := plain.reads ++ [sa, sb] }
      let k := fun l => match x8 ((w.valueOf sa l).bits.toNat / 2 ^ (8 * sel.toNat) % 256), x8 ((w.valueOf sb l).bits.toNat / 2 ^ (8 * sel.toNat) % 256) with
        | some p, some q => some (p + q)
        | _, _ => none
      quad (.dot8 sel d a b 1#1) scaled f8a 8 16 [sa, sb] k ∧ quad (.dot4 sel d a b 1#1) scaled f4 4 32 [sa, sb] k

/-- R151 to R156: the special functions, EXS and the running pairs SMXA and SMXM, whose latch value is the correction factor. Elsewhere their bits are
free within the bound (log 4). Special inputs of every one of the eight give the results and flags of R151's table. R52's exception (R155, R156): SMXA
and SMXM write the new pair to their destination in the drawer and the correction factor to the latch, in the active lanes whose sources are clean,
and the PCs advance. -/
def Obligations.SpecialFunctions : Prop :=
  ((∀ (s : State) (act : Mask) (pc : DWord) (d a b : Code),
     let w := s.warp
     let n := fun c l => (w.valueOf c l).bits.toNat
     let one := fun i k => Gives s i (formU d a).slower act pc [⟨d, everyOther [w.shapeOf a], w.un a fun x => BitVec.ofNat 32 (sfuFn k x).1⟩]
       (w.flagged [a] act fun l => (sfuFn k (w.valueOf a l).bits).2)
     one (.sfuRcp d a) 0 ∧ one (.sfuRsq d a) 1 ∧ one (.sfuSqrt d a) 2 ∧ one (.sfuExp2 d a) 3 ∧ one (.sfuLog2 d a) 4 ∧
     one (.sfuSinp d a) 5 ∧ one (.sfuCosp d a) 6 ∧ one (.sfuTanh d a) 7 ∧
     Gives s (.exs d a b) { formT d a b with reads := [a, b, d], lat := 10 } act pc
       [⟨d, everyOther [w.shapeOf a, w.shapeOf b, w.shapeOf d], w.tern a b d fun x y z => BitVec.ofNat 32 (exsFn x.toNat y.toNat z.toNat).1⟩]
       (w.flagged [a, b, d] act fun l => (exsFn (n a l) (n b l) (n d l)).2)) ∧
   (sfuFn 0 0x00000000#32 = (0x7F800000, flDZ) ∧ sfuFn 0 0x80000000#32 = (0xFF800000, flDZ) ∧ sfuFn 0 0xFF800000#32 = (0x80000000, 0#6) ∧
    sfuFn 1 0x00000000#32 = (0x7F800000, flDZ) ∧ sfuFn 1 0x7F800000#32 = (0, 0#6) ∧ sfuFn 1 0xBF800000#32 = (0x7FC00000, flNV) ∧
    sfuFn 2 0x80000000#32 = (0x80000000, 0#6) ∧ sfuFn 2 0xBF800000#32 = (0x7FC00000, flNV) ∧
    sfuFn 3 0xFF800000#32 = (0, 0#6) ∧ sfuFn 3 0x43000000#32 = (0x7F800000, flOF ||| flNX) ∧
    sfuFn 4 0x00000000#32 = (0xFF800000, flDZ) ∧ sfuFn 4 0xBF800000#32 = (0x7FC00000, flNV) ∧
    sfuFn 5 0x7F800000#32 = (0x7FC00000, flNV) ∧ sfuFn 6 0xFF800000#32 = (0x7FC00000, flNV) ∧
    sfuFn 7 0x7F800000#32 = (0x3F800000, 0#6) ∧ sfuFn 7 0xFF800000#32 = (0xBF800000, 0#6) ∧ sfuFn 7 0x7F800001#32 = (0x7FC00000, flNV))) ∧
  (∀ (s : State) (act : Mask) (pc : DWord) (d a b : Code),
     d.toNat % 2 = 0 → isDrawer d = true →
     let w := s.warp
     let env := (w.iss act pc).env
     let n := fun c l => (w.valueOf c l).bits.toNat
     let holds := fun (t : State) (srcs : List Code) (r : Nat → Nat × Nat × Nat × Flags) => ∀ l < 32, act.has l = true →
       (∀ c ∈ srcs, (w.valueOf c l).psn = false) →
       t.warp.valueOf d l = Val.clean (BitVec.ofNat 32 (r l).1) ∧ t.warp.valueOf (d + 1) l = Val.clean (BitVec.ofNat 32 (r l).2.1) ∧
       (∀ k, w.hints.unpinned.head? = some k → laneOf (t.warp.latch.getD k Slot.fresh).lanes l = Val.clean (BitVec.ofNat 32 (r l).2.2.1)) ∧
       t.warp.pcOf l = pc + 4#64
     (s.Issues (.smxa d a b) { reads := [a, b, d, d + 1], slotA := [a], slotB := [b], dsts := [d, d + 1], lat := 10 } act pc →
       ∃ t, exec (.smxa d a b) s = .next t ∧ t = { s with warp := t.warp } ∧
         holds t [a, b, d, d + 1] fun l => smxaFn env (n d l) (n (d + 1) l) (n a l) (n b l)) ∧
     (∀ lo hi, pairCodes a = [lo, hi] →
       s.Issues (.smxm d a) { reads := [lo, hi, d, d + 1], slotA := [lo, hi], dsts := [d, d + 1], lat := 10 } act pc →
       ∃ t, exec (.smxm d a) s = .next t ∧ t = { s with warp := t.warp } ∧
         holds t [lo, hi, d, d + 1] fun l => smxmFn env (n d l) (n (d + 1) l) (n lo l) (n hi l)))

/-- R151 to R156, R157: SFU.RCP, RSQ, SQRT, EXP2, LOG2, SINP, COSP and TANH, EXS, SMXA and SMXM complete. Where one issues with readable sources, and
its destination is a drawer entry or a cabinet register below N that is not dead while one more general register (two for a pair) is within Gmax, exec
answers a next state: each active lane of the destination holds the function of its clean sources or the token of the first poisoned one, its PCs
advance, and nothing outside the warp changes. -/
def Obligations.SpecialCompletion : Prop :=
  ∀ (s : State) (act : Mask) (pc : DWord) (d a b : Code),
    let w := s.warp
    let env := (w.iss act pc).env
    let n := fun c l => (w.valueOf c l).bits.toNat
    let alive := fun (f : Form) (c : Code) => c.toNat < w.n ∧ ((w.markDead f).cab.getD c.toNat Reg.fresh).dead = false
    let after := fun (t : State) => t = { s with warp := t.warp } ∧ ∀ l < 32, t.warp.pcOf l = if act.has l then pc + 4#64 else w.pcOf l
    let holds := fun (t : State) (c : Code) (srcs : List Code) (g : Nat → Nat) =>
      ∀ l < 32, act.has l = true → t.warp.valueOf c l = orToken (srcs.map fun c => w.valueOf c l) (BitVec.ofNat 32 (g l))
    let one := fun (i : Instr) (f : Form) (srcs : List Code) (g : Nat → Nat) =>
      s.Issues i f act pc → (isDrawer d = true ∨ isCab d = true ∧ alive f d ∧ (w.markDead f).generalCount < w.gmax) →
      ∃ t, exec i s = .next t ∧ after t ∧ holds t d srcs g
    let sfu := fun i k => one i (formU d a).slower [a] fun l => (sfuFn k (w.valueOf a l).bits).1
    let pair := fun (i : Instr) (f : Form) (srcs : List Code) (g : Nat → Nat × Nat × Nat × Flags) =>
      s.Issues i f act pc → (isDrawer d = true ∨ isCab d = true ∧ alive f d ∧ alive f (d + 1) ∧ (w.markDead f).generalCount + 1 < w.gmax) →
      ∃ t, exec i s = .next t ∧ after t ∧ holds t d srcs (fun l => (g l).1) ∧ holds t (d + 1) srcs fun l => (g l).2.1
    sfu (.sfuRcp d a) 0 ∧ sfu (.sfuRsq d a) 1 ∧ sfu (.sfuSqrt d a) 2 ∧ sfu (.sfuExp2 d a) 3 ∧ sfu (.sfuLog2 d a) 4 ∧
    sfu (.sfuSinp d a) 5 ∧ sfu (.sfuCosp d a) 6 ∧ sfu (.sfuTanh d a) 7 ∧
    one (.exs d a b) { formT d a b with reads := [a, b, d], lat := 10 } [a, b, d] (fun l => (exsFn (n a l) (n b l) (n d l)).1) ∧
    (d.toNat % 2 = 0 → pair (.smxa d a b) { reads := [a, b, d, d + 1], slotA := [a], slotB := [b], dsts := [d, d + 1], lat := 10 } [a, b, d, d + 1]
      fun l => smxaFn env (n d l) (n (d + 1) l) (n a l) (n b l)) ∧
    ∀ lo hi, d.toNat % 2 = 0 → pairCodes a = [lo, hi] →
      pair (.smxm d a) { reads := [lo, hi, d, d + 1], slotA := [lo, hi], dsts := [d, d + 1], lat := 10 } [lo, hi, d, d + 1]
        fun l => smxmFn env (n d l) (n (d + 1) l) (n lo l) (n hi l)

/-- R129: TILE sets the partition register for the whole warp, and nothing else but the PCs of the active lanes. R130, R136: LGET gives each active
lane the value, or the token, of the lane of its tile that its index names, whether that lane is active or not; HEAD gives each active lane the lowest
active lane of its tile, or whether it is that lane. -/
def Obligations.LaneExchange : Prop :=
  (∀ (s : State) (act : Mask) (pc : DWord) (k : BitVec 9),
     s.Issues (.tile k) { reads := [] } act pc →
     ∃ t, exec (.tile k) s = .next t ∧ t.warp.tsize = 2 ^ k.toNat ∧ t = { s with warp := t.warp } ∧
       t.warp.latch = s.warp.latch ∧ t.warp.drawer = s.warp.drawer ∧ t.warp.fpstat = s.warp.fpstat ∧
       (∀ c, isCab c = true → t.warp.cab.getD c.toNat Reg.fresh = s.warp.cab.getD c.toNat Reg.fresh) ∧
       ∀ l < 32, t.warp.pcOf l = if act.has l then pc + 4#64 else s.warp.pcOf l) ∧
  (∀ (s : State) (act : Mask) (pc : DWord) (d a b : Code),
     let w := s.warp
     let t := w.tsize
     let base := fun l => l - l % t
     let get := fun i (rot : Bool) =>
       w.readable fullMask a →
       let from' := fun l => if rot then base l + (l - base l + (w.valueOf b l).bits.toNat) % t else base l + (w.valueOf b l).bits.toNat % t
       Gives s i { reads := [b], slotA := [a], slotB := [b], dsts := [d], late := [a] } act pc
         [⟨d, if w.shapeOf a = .u then .u else .g, fun l => if (w.valueOf b l).psn = true then w.valueOf b l else w.valueOf a (from' l)⟩] 0#6
     let head := fun l => ((tileLanes act t l).head?).getD l
     get (.lgetIdx d a b) false ∧ get (.lgetRot d a b) true ∧
     Gives s (.headFlag d) { reads := [], dsts := [d] } act pc [⟨d, .g, fun l => Val.clean (if head l = l then 1#32 else 0#32)⟩] 0#6 ∧
     Gives s (.headNum d) { reads := [], dsts := [d] } act pc [⟨d, if t = 32 then .u else .g, fun l => Val.clean (BitVec.ofNat 32 (head l))⟩] 0#6)

/-- R128, R131, R132, R135: the polls, the reductions and the key masks. Every active lane of a tile receives one function of the values of the tile's
active lanes, or the token of the lowest poisoned one; the nominal shape is U where the tile is the whole warp, and KEYM.PEER's is G. -/
def Obligations.TileReductions : Prop :=
  ∀ (s : State) (act : Mask) (pc : DWord) (d a : Code) (v : BitVec 1),
    let w := s.warp
    let ls := tileLanes act w.tsize
    let x := fun l => (w.valueOf a l).bits
    let xs := fun l => (ls l).map x
    let sh : Shape := if w.tsize = 32 then .u else .g
    let out := fun (g : Nat → Word) l => orToken ((ls l).map fun k => w.valueOf a k) (g l)
    let quick := fun i g => Gives s i (formU d a) act pc [⟨d, sh, out g⟩] 0#6
    let slow := fun i g => Gives s i (formU d a).slow act pc [⟨d, sh, out g⟩] 0#6
    let same := fun (f : BitVec 1) (p q : Word) => sameKey f p q = true
    quick (.pollEvery d a) (fun l => if ∀ y ∈ xs l, y ≠ 0#32 then 1#32 else 0#32) ∧
    quick (.pollSome d a) (fun l => if ∃ y ∈ xs l, y ≠ 0#32 then 1#32 else 0#32) ∧
    quick (.pollMask d a) (fun l => maskOf fun k => k ∈ ls l ∧ x k ≠ 0#32) ∧
    quick (.pollSame d a) (fun l => if ∀ y ∈ xs l, ∀ z ∈ xs l, y = z then 1#32 else 0#32) ∧
    quick (.pollCount d a) (fun l => BitVec.ofNat 32 ((xs l).countP fun y => y != 0#32)) ∧
    slow (.wredAdd d a) (fun l => (xs l).foldr (· + ·) 0#32) ∧
    slow (.wredAnd d a) (fun l => (xs l).foldr (· &&& ·) 0xFFFFFFFF#32) ∧
    slow (.wredOr d a) (fun l => (xs l).foldr (· ||| ·) 0#32) ∧
    slow (.wredXor d a) (fun l => (xs l).foldr (· ^^^ ·) 0#32) ∧
    (∀ g : Nat → Word, (∀ l < 32, act.has l = true → g l ∈ xs l ∧ ∀ y ∈ xs l, readAs v (g l) ≤ readAs v y) → slow (.wredMin d a v) g) ∧
    (∀ g : Nat → Word, (∀ l < 32, act.has l = true → g l ∈ xs l ∧ ∀ y ∈ xs l, readAs v y ≤ readAs v (g l)) → slow (.wredMax d a v) g) ∧
    slow (.keymWhole d a v) (fun l => if ∀ y ∈ xs l, ∀ z ∈ xs l, same v y z then maskOf fun k => k ∈ ls l else 0#32) ∧
    Gives s (.keymPeer d a v) (formU d a).slow act pc [⟨d, .g, out fun l => maskOf fun k => k ∈ ls l ∧ same v (x k) (x l)⟩] 0#6

/-- R115, R116, R118, R133, R134: WREDF and SCAN complete where they issue, with a result that depends on the active lanes of the tile alone, each
read as R102, R111 and log 53 say. WREDF gives every active lane of a tile the tree of its active lanes, or the token of the lowest poisoned one. A
lane of a SCAN receives the running sum, maximum, minimum or union of the active lanes up to it, or below it in the exclusive form, the identity where
there are none, or the token of the lowest poisoned one among them; SCAN.FADD raises the flags of what forms the result delivered and of what forms
the lane's own (R112), and none where poison reaches it. -/
def Obligations.TreesAndScans : Prop :=
  ∀ (s : State) (act : Mask) (pc : DWord) (d a : Code) (v : BitVec 1),
    let w := s.warp
    (w.tsize = 2 ∨ w.tsize = 4 ∨ w.tsize = 8 ∨ w.tsize = 16 ∨ w.tsize = 32) →
    let env := { (w.iss act pc).env with sat := false }
    let base := fun l : Nat => l - l % w.tsize
    -- a poisoned lane gives a node that no clean result is formed from
    let node := fun l : Nat => if act.has l then some (if (w.valueOf a l).psn then (0#32, 0#6) else fpLeaf env (w.valueOf a l).bits) else none
    let tile := fun l => (List.range w.tsize).map fun k => node (base l + k)
    let lanes := fun (l n : Nat) => ((List.range n).map fun k => base l + k).filter fun k => act.has k
    let token := fun (l n : Nat) (x : Word) => orToken ((lanes l n).map fun k => w.valueOf a k) x
    let bad := fun (l n : Nat) => (lanes l n).any fun k => (w.valueOf a k).psn
    let tree := fun (g : FpEnv → Word → Word → Word × Flags) l => (treeFold (g env) 5 (tile l)).getD (0#32, 0#6)
    let red := fun i g => Gives s i (formU d a).slow act pc [⟨d, if w.tsize = 32 then .u else .g, fun l => token l w.tsize (tree g l).1⟩]
      (flagsOf act fun l => if bad l w.tsize then 0#6 else (tree g l).2)
    -- how many lanes of the tile a result delivered to lane l is formed from
    let n := fun l => l % w.tsize + (if v = 0#1 then 1 else 0)
    let run := fun (g : Word → Word → Word) (z : Word) l => ((lanes l (n l)).map fun k => (w.valueOf a k).bits).foldl g z
    let scan := fun i g z => Gives s i (formU d a).slow act pc [⟨d, .g, fun l => token l (n l) (run g z l)⟩] 0#6
    let sum := fun (l m : Nat) => if m = 0 then (0#32, 0#6) else ((scanTile (faddWord env) (tile l)).getD (m - 1) none).getD (0#32, 0#6)
    red (.wredfFadd d a) faddWord ∧ red (.wredfFmin d a) (fmmWord false) ∧ red (.wredfFmax d a) (fmmWord true) ∧
    scan (.scanIadd d a v) (· + ·) 0#32 ∧
    scan (.scanImaxS d a v) (fun x y => BitVec.ofInt 32 (max x.toInt y.toInt)) 0x80000000#32 ∧
    scan (.scanImaxN d a v) (fun x y => BitVec.ofNat 32 (max x.toNat y.toNat)) 0#32 ∧
    scan (.scanIminS d a v) (fun x y => BitVec.ofInt 32 (min x.toInt y.toInt)) 0x7FFFFFFF#32 ∧
    scan (.scanIminN d a v) (fun x y => BitVec.ofNat 32 (min x.toNat y.toNat)) 0xFFFFFFFF#32 ∧
    scan (.scanOr d a v) (· ||| ·) 0#32 ∧
    Gives s (.scanFadd d a v) (formU d a).slow act pc [⟨d, .g, fun l => token l (n l) (sum l (n l)).1⟩]
      (flagsOf act fun l => (if bad l (n l) then 0#6 else (sum l (n l)).2) ||| (if bad l (l % w.tsize + 1) then 0#6 else (sum l (l % w.tsize + 1)).2))

/-- R58 to R64: a hint changes the hint state alone, beside the PCs: XIMM.L and XIMM.H build xi, LIFE replaces the pending marks, HOLD pins and
HOLD.REL releases, SCALE names the scale operands, MOD replaces the pending modifiers, SCHED sets the delay and YP. Each pin counts one instruction
first. -/
def Obligations.HintEffects : Prop :=
  ∀ (s : State) (act : Mask) (pc : DWord),
    s.warp.group = some (act, pc) → s.warp.mayIssue = true →
    let h := s.warp.hints
    let pin := fun k => h.pins.getD k 0 - 1
    let gives := fun (i : Instr) (ok : Hints → Prop) => i.wf = true →
      ∃ t, exec i s = .next t ∧ s.Stays t act (fun _ => pc + 4#64) false ∧ t.warp.region = s.warp.region ∧ ok t.warp.hints
    let keeps := fun (x : Hints) => x.life = h.life ∧ x.lifePos = h.lifePos ∧ x.yp = h.yp
    let xiSame := fun (x : Hints) => x.xi = h.xi ∧ x.xiValid = h.xiValid
    (∀ im, gives (.ximmL im) fun x => x.xi = BitVec.ofInt 32 im.toInt ∧ x.xiValid = true ∧ keeps x ∧ x.mod = h.mod ∧ x.scale = h.scale) ∧
    (∀ im, gives (.ximmH im) fun x => x.xi = im ++ (if h.xiValid then h.xi.extractLsb' 0 16 else 0#16) ∧ x.xiValid = true ∧ keeps x ∧
      x.mod = h.mod ∧ x.scale = h.scale) ∧
    (∀ a b, gives (.life a b) fun x => x.life = a ++ b ∧ x.lifePos = 0 ∧ xiSame x ∧ x.mod = h.mod ∧ x.scale = h.scale ∧ x.yp = h.yp) ∧
    (∀ c m, gives (.hold c m) fun x => (∀ k < 3, x.pins.getD k 0 = if m.getLsbD k then c.toNat else pin k) ∧ keeps x ∧ xiSame x ∧ x.mod = h.mod) ∧
    gives .holdRel (fun x => (∀ k < 3, x.pins.getD k 0 = 0) ∧ keeps x ∧ xiSame x ∧ x.mod = h.mod) ∧
    (∀ b a, gives (.scale b a) fun x => x.scale = some (a, b) ∧ keeps x ∧ xiSame x ∧ x.mod = h.mod) ∧
    (∀ chv arr bid chn scope sat rm, gives (.mod chv arr bid chn scope sat rm) fun x => x.mod = some
      { chv := chv == 1#1, arr := arr == 1#1, bid := bid.toNat, chn := chn.toNat, scope := scope.toNat, sat := sat == 1#1, rm := rm.toNat } ∧
      keeps x ∧ xiSame x ∧ x.scale = h.scale) ∧
    (∀ n, gives (.sched n) fun x => x.delay = n.toNat ∧ keeps x ∧ xiSame x ∧ x.mod = h.mod) ∧
    (∀ n, gives (.schedYp n) fun x => x.delay = n.toNat ∧ x.yp = true ∧ xiSame x ∧ x.mod = h.mod)

/-- R310: NOP changes nothing but the PCs; BRA sends every active lane to PC + 4 * OFF25, and under SCHED.YP it is a deschedule point (R64). The words
of the rule decode so. -/
def Obligations.NopAndBranch : Prop :=
  (∀ (s : State) (act : Mask) (pc : DWord) (o : BitVec 25),
    (s.Issues .nop { reads := [] } act pc →
      ∃ t, exec .nop s = .next t ∧ s.Stays t act (fun _ => pc + 4#64) false ∧ t.warp.region = s.warp.region ∧ t.warp.exited = s.warp.exited) ∧
    (s.Issues (.bra o) { reads := [], point := s.warp.hints.yp } act pc →
      ∃ t, exec (.bra o) s = .next t ∧ s.Stays t act (fun _ => pc + BitVec.ofInt 64 (4 * o.toInt)) s.warp.hints.yp ∧
        t.warp.region = s.warp.region ∧ t.warp.exited = s.warp.exited)) ∧
  decodeWord 0x02000000#32 = .instr .nop ∧ (∀ o : BitVec 25, o ≠ 0#25 → decodeWord (1#7 ++ o) = .suppressed .operand) ∧
  (∀ o : BitVec 25, decodeWord (2#7 ++ o) = .instr (.bra o)) ∧
  decodeWord 0x04000000#32 = .instr (.bra 0#25) ∧ decodeWord 0x05FFFFFD#32 = .instr (.bra (BitVec.ofInt 25 (-3)))

/-- R311: a lane of BZ or BNZ whose condition is poisoned falls through and sets the region-poison flag; a lane whose condition holds goes to PC + 4 *
OFF17, any other to PC + 4. R312: BRX and RET send a lane to the 64-bit target in its pair; a lane whose target is poisoned or not a multiple of 4
goes to PC + 4 and the region-poison flag is set. RET also pops the return stack. Where every active target is clean and a multiple of 4, nothing
outside the warp changes. R313, R314, R318: CALL writes the address after it to its pair, pushes it on a return stack of four entries and goes to PC +
4 * IMM17; CLOCK writes the die's cycle counter to its pair. -/
def Obligations.Branches : Prop :=
  (∀ (s : State) (act : Mask) (pc : DWord) (a : Code) (o : BitVec 17),
     let w := s.warp
     let yp := w.hints.yp
     let goes := fun (i : Instr) (taken : Word → Bool) =>
       s.Issues i { reads := [a], slotA := [a], point := yp } act pc →
       ∃ t, exec i s = .next t ∧
         s.Stays t act (fun l => if (w.valueOf a l).psn = false ∧ taken (w.valueOf a l).bits = true
           then pc + BitVec.ofInt 64 (4 * o.toInt) else pc + 4#64) yp ∧
         ((∃ l < 32, act.has l = true ∧ (w.valueOf a l).psn = true) → t.warp.region.flag = true) ∧
         ((∀ l < 32, act.has l = true → (w.valueOf a l).psn = false) → t.warp.region = w.region)
     goes (.bz a o) (fun x => x == 0#32) ∧ goes (.bnz a o) (fun x => x != 0#32)) ∧
  (∀ (s : State) (act : Mask) (pc : DWord) (a lo hi : Code), pairCodes a = [lo, hi] →
     let w := s.warp
     let psn := fun l => (w.valueOf lo l).psn || (w.valueOf hi l).psn
     let target := fun l => (w.valueOf hi l).bits ++ (w.valueOf lo l).bits
     let good := fun l => psn l = false ∧ (target l).toNat % 4 = 0
     let goes := fun (i : Instr) => s.Issues i { reads := [lo, hi], slotA := [lo, hi], point := w.hints.yp } act pc →
       ∃ t, exec i s = .next t ∧
         (∀ l < 32, act.has l = true → (good l → t.warp.pcOf l = target l) ∧ (¬ good l → t.warp.pcOf l = pc + 4#64)) ∧
         ((∃ l < 32, act.has l = true ∧ ¬ good l) → t.warp.region.flag = true) ∧
         ((∀ l < 32, act.has l = true → good l) → s.Stays t act target w.hints.yp ∧ t.warp.region = w.region)
     goes (.brx a) ∧ goes (.ret a) ∧
     (w.hints.yp = false → s.Issues (.ret a) { reads := [lo, hi], slotA := [lo, hi], point := false } act pc →
       ∃ t, exec (.ret a) s = .next t ∧ t.warp.retStack = w.retStack.drop 1)) ∧
  (∀ (s : State) (act : Mask) (pc : DWord) (d lo hi : Code) (im : BitVec 17), pairCodes d = [lo, hi] →
     let w := s.warp
     let f : Form := { reads := [], dsts := [lo, hi] }
     let words := fun (x : DWord) => [ResWord.mk lo .u fun _ => Val.clean (x.extractLsb' 0 32), ResWord.mk hi .u fun _ => Val.clean (x.extractLsb' 32 32)]
     Gives s (.clock d) f act pc (words (BitVec.ofNat 64 (s.ctrs.getD s.myDie 0))) 0#6 ∧
     (w.hints.yp = false → s.Issues (.call d im) f act pc → Warp.takesAll act (words (pc + 4#64)) (w.markDead f) →
       ∃ t u, exec (.call d im) s = .next t ∧ s.Result u act pc (words (pc + 4#64)) 0#6 ∧
         t = { u with warp := { u.warp with pcs := t.warp.pcs, retStack := ((pc + 4#64) :: w.retStack).take 4 } } ∧
         ∀ l < 32, t.warp.pcOf l = if act.has l then pc + BitVec.ofInt 64 (4 * im.toInt) else w.pcOf l))

/-- R56, R315: YIELD changes the PCs and invalidates the drawer, the latch and xi; EXIT of some of a warp's live lanes exits them. EXIT of all of
them, with the region closed, its flag clear and nothing in the Rack, ends the warp. R316, R317: BRK places one break record in the event queue of its
context and goes on; SIGNAL adds its value in the lowest active lane to an event counter, or, where that is poisoned, adds nothing and sets the
region-poison flag. -/
def Obligations.YieldExitAndSignals : Prop :=
  (∀ (s : State) (act : Mask) (pc : DWord),
     (s.Issues .yield { reads := [], point := true } act pc →
       ∃ t, exec .yield s = .next t ∧ s.Stays t act (fun _ => pc + 4#64) true ∧ t.warp.hints.xiValid = false ∧ t.warp.hints.scale = none ∧
         t.warp.retStack = [] ∧ t.warp.region = s.warp.region) ∧
     (s.Issues .exit { reads := [], point := true } act pc → s.warp.exited ||| act ≠ fullMask → s.warp.region.flag = false → s.rackOf s.warp.ref = [] →
       ∃ t, exec .exit s = .next t ∧ t.warp.exited = s.warp.exited ||| act ∧ t.warp.status = .running ∧ t.mem = s.mem) ∧
     (s.Issues .exit { reads := [], point := true } act pc → s.warp.exited ||| act = fullMask → s.warp.region.flag = false → s.rackOf s.warp.ref = [] →
       s.warp.isTask = false →
       ∃ t, exec .exit s = .next t ∧ t.warp.exited = fullMask ∧ t.warp.status = .ended ∧ t.warp.region.opened = false ∧ t.mem = s.mem)) ∧
  (∀ (s : State) (act : Mask) (pc : DWord) (c : BitVec 16) (a : Code) (n : BitVec 9),
     let w := s.warp
     let v := w.valueOf a act.lowest
     let tag := s.myTag
     (s.Issues (.brk c) { reads := [] } act pc → (s.ctx tag).eqEn = true →
       ((s.ctx tag).eqWrite - (s.ctx tag).eqRead).toNat ≠ 2 ^ (s.ctx tag).eqLog2n →
       ∀ tl, (s.lookup none 4 tag 0 ((s.ctx tag).eqBase + BitVec.ofNat 64 ((s.ctx tag).eqWrite.toNat % 2 ^ (s.ctx tag).eqLog2n * 32)) true).2 = .leaf tl →
       ∃ t, exec (.brk c) s = .next t ∧ t.ctxs = (s.modCtx tag fun c => { c with eqWrite := c.eqWrite + 1 }).ctxs ∧
         ∀ l < 32, t.warp.pcOf l = if act.has l then pc + 4#64 else w.pcOf l) ∧
     (s.Issues (.signal a n) { reads := [a], slotA := [a] } act pc → s.myLaunch.paired = false → w.acquiring = false → s.released w.ref true = true →
       ∃ t, exec (.signal a n) s = .next t ∧
         (v.psn = false → t.ctxs = (s.modCtx tag fun c => { c with ectr := updAt c.ectr n.toNat fun x => x + v.bits }).ctxs ∧ t.warp.region = w.region) ∧
         (v.psn = true → t.ctxs = s.ctxs ∧ t.warp.region.flag = true) ∧
         ∀ l < 32, t.warp.pcOf l = if act.has l then pc + 4#64 else w.pcOf l))

/-- R41, R42, R69, R70: SGET delivers a special register in the tightest shape its 32 values fit, equal or in arithmetic progression; SSET gives
FPMODE, FPSTAT, CHAN or PROGRESS the clean value of the lowest active lane where no reserved field of it is set, and otherwise leaves them and sets
the region-poison flag. -/
def Obligations.SpecialRegisters : Prop :=
  ∀ (s : State) (act : Mask) (pc : DWord) (d : Code) (n : BitVec 10),
    let w := s.warp
    let x := fun l => BitVec.ofNat 32 (s.special n.toNat l)
    let shape : Shape := if (List.range 32).all fun l => x l == x 0 then .u
      else if (List.range 32).all fun l => x l == x 0 + (x 1 - x 0) * BitVec.ofNat 32 l then .a else .g
    let v := w.valueOf d act.lowest
    let legal := if n = 0x40#10 then v.bits.toNat < 16 ∧ 1 ≤ v.bits.toNat % 8 ∧ v.bits.toNat % 8 ≤ 5
      else if n = 0x41#10 then v.bits.toNat < 64 else if n = 0x42#10 then v.bits.toNat < 16 else v.bits.toNat < 65536
    ((n = 0x41#10 → s.scaling = false) →
      Gives s (.sget d n) { reads := [], dsts := [d] } act pc [⟨d, shape, fun l => Val.clean (x l)⟩] 0#6) ∧
    (s.Issues (.sset d n) { reads := [d], slotA := [d] } act pc →
      ∃ t, exec (.sset d n) s = .next t ∧ (∀ l < 32, t.warp.pcOf l = if act.has l then pc + 4#64 else w.pcOf l) ∧
        t.warp.latch = w.latch ∧ t.warp.drawer = w.drawer ∧ t.warp.tsize = w.tsize ∧
        (v.psn = false → legal →
          t.warp.fpmode = (if n = 0x40#10 then v.bits else w.fpmode) ∧ t.warp.fpstat = (if n = 0x41#10 then v.bits else w.fpstat) ∧
          t.warp.chan = (if n = 0x42#10 then v.bits else w.chan) ∧ t.warp.region = w.region ∧
          t = { s with warp := t.warp, wgs := if n = 0x43#10 then (s.modWg w.ref.wg fun g => { g with progress := v.bits }).wgs else s.wgs }) ∧
        (v.psn = true ∨ ¬ legal → t.warp.fpmode = w.fpmode ∧ t.warp.fpstat = w.fpstat ∧ t.warp.chan = w.chan ∧ t.warp.region.flag = true ∧
          ((∀ pa, s.locate pa = none) → t.wgs = s.wgs)))

/-- R67, R68: where its line is mapped, SPILL stores the packed value into the line of its slot and records the packing and the poisoned lanes; RELOAD
gives the active lanes the value that the line and the record hold, with shape U, A or G by the packing. Neither changes anything else but TLBs and
what L2 holds. -/
def Obligations.SpillAndReload : Prop :=
  ∀ (s : State) (act : Mask) (pc : DWord) (c : Code) (sl : BitVec 9),
    let w := s.warp
    let core := s.coreOf w.ref.wg
    w.spw ≠ 0xFFFFFFFF → w.acquiring = false →
    (s.storeFull 1 = false → s.Issues (.spill c sl) { reads := [c], slotA := [c] } act pc →
      ∀ pa n ps, (s.spillLine sl.toNat true).2 = .mem 1 ((pa, n) :: ps) →
      let x := (w.rawSource c).1
      let code := spillCode act x
      let ws := (spillBytes act code x).foldl (fun ws p => mergeBytes ws (pa + p.1) p.2) ([] : List SectorWrite)
      let z := (s.spillLine sl.toNat true).1
      ∃ t es, exec (.spill c sl) s = .next t ∧ w.Keeps t.warp act (fun _ => pc + 4#64) false ∧
        es.map StoreEntry.act = ws.map StoreAct.mem ∧ (∀ e ∈ es, e.warp = w.ref ∧ e.tag = s.myTag) ∧
        t.cores = (z.modCore core fun k => { k with storeQ := k.storeQ ++ es }).cores ∧
        t.warp.spill = updAt w.spill sl.toNat (fun _ => { code := code, mask := maskOf fun l => act.has l && (w.valueOf c l).psn }) ∧
        t.warp.region = w.region ∧ t = { z with warp := t.warp, cores := t.cores, nextId := t.nextId }) ∧
    (s.Plain → s.Issues (.reload c sl) { reads := [], dsts := [c] } act pc →
      ∀ pa n ps, (s.spillLine sl.toNat false).2 = .mem 1 ((pa, n) :: ps) →
      let e := w.spill.getD sl.toNat { code := 3, mask := 0#32 }
      let m := s.mem.view s.myDie
      let part := fun (o k : Nat) (f : Nat → Word) l => match m.token (pa + o) with
        | some t => Val.poison t
        | none => ({ bits := f (m.nat (pa + o) k), psn := e.mask.has l } : Val)
      let val := fun l => match e.code with
        | 0 => part 0 4 (fun x => BitVec.ofNat 32 x) l
        | 1 => part 0 8 (fun x => BitVec.ofNat 32 x + BitVec.ofNat 32 (x / 2 ^ 32) * BitVec.ofNat 32 l) l
        | 2 => part (2 * l) 2 (fun x => (BitVec.ofNat 16 x).signExtend 32) l
        | _ => part (4 * l) 4 (fun x => BitVec.ofNat 32 x) l
      let rs := [ResWord.mk c (if e.code = 0 then .u else if e.code = 1 then .a else .g) val]
      Warp.takesAll act rs w →
      ∃ t, exec (.reload c sl) s = .next t ∧ State.Result { (s.spillLine sl.toNat false).1 with l2 := t.l2 } t act pc rs 0#6)

/-- R213, R215, R217 to R220: a load gives each active lane the words at its address, a sub-word extended by X, and the token of a sector that is
poisoned (R199): of device memory as its die sees it, of a registered line that is filled the stash's (R208), of another node a peer line's (R201). A
lane whose address is poisoned receives that token, one whose address faults the token of the cause that the instruction makes, one for each cause,
and one for a node whose send channel the context does not own PROTECTION (R280). A lane of another node or of host memory asks for its words: the
result waits for these lanes, and the others have theirs. An acquire at domain or system scope drops the die's peer lines (R201), and a sequentially
consistent load reads what every die sees (R265). One that must wait is held, and its warp goes on (R236). Where the model draws that a relaxed load
is performed later (log 72), it is not stated here. -/
def Obligations.Loads : Prop :=
  ∀ (s : State) (act : Mask) (pc : DWord) (d a : Code) (p : BitVec 2) (sz : BitVec 3) (o : BitVec 2) (x c : BitVec 1),
    let w := s.warp
    let op := fun c => (w.rawSource c).1
    let size := 2 ^ sz.toNat
    let chan := (w.iss act pc).chan
    let loads := fun (i : Instr) (f : Form) (addr : Nat → BitVec 16 × (Word ⊕ DWord)) (o : BitVec 2) (sub : Option (Nat × Bool)) (nom : Shape) =>
      let q := State.ways size size false addr (lanesOf act) s []
      let fs := q.1.laneFaults chan (fun _ => true) q.2
      let toks := (q.1.tokensFor pc fs).2
      let z := (q.1.tokensFor pc fs).1
      let sc := scopeOf (w.iss act pc).scope (q.2.filter fun a => !(fs.any fun x => x.lane == a.lane) && z.cleanTarget s.myDie a)
      let own := fun (m : DevMem) => { m with peers := m.peers.filter fun y => y.die != s.myDie }
      let m := if o = 3#2 ∧ 5 ≤ sc then z.mem.sync else z.mem
      let m := if o = 3#2 ∧ 6 ≤ sc then own m else m
      let y : State := { z with mem := m }
      let asks := fun (a : LaneAcc) => match a.way with
        | .host _ _ => true
        | .remote n off => z.ownsSend s.myTag n chan && (y.peerWord s.myDie s.myTag n off.toNat).isNone
        | _ => false
      let wordOf := fun (k : Nat) (a : LaneAcc) => match a.way with
        | .bad t => Val.poison t
        | .fault c _ _ => Val.poison (tokenIn toks c)
        | .mem _ ps =>
          let pl := (wordPieces ps).getD k (0, 0)
          let at' := y.readPlace s.myDie pl.1
          let v := at'.1.readVal at'.2 pl.2
          (match sub with
          | some (n, sx) => if v.psn then v else Val.clean (extend n sx v.bits.toNat)
          | none => v)
        | .remote n off =>
          if z.ownsSend s.myTag n chan then (y.peerWords s.myDie s.myTag n size [] sub a off).getD k Val.zero else Val.poison (tokenIn toks .protection)
        | .host _ _ => Val.zero
      let rs := (List.range f.dsts.length).map fun k => ResWord.mk (f.dsts.getD k 0#8) nom fun l =>
        ((q.2.find? fun a => a.lane == l).map (wordOf k)).getD Val.zero
      s.Issues i f act pc → s.svc.errors = [] → (s.ctx s.myTag).injArm = false → s.drained w.ref = true →
      s.cores.all (fun c => c.storeQ.all fun e => e.upto == 0) = true → s.slack = false → w.acquiring = false → s.myLaunch.paired = false →
      (∀ pa wg e line off, z.locate pa = some (wg, e, line, off) → z.lineHeld wg e line = true) →
      ((∀ a ∈ q.2, asks a = false) → Warp.takesAll act rs (w.markDead f) →
        ∃ t, exec i s = .next t ∧ State.Result { y with mem := if o ≠ 0#2 ∧ 6 ≤ sc then own m else m, l2 := t.l2 } t act pc rs 0#6) ∧
      ((∃ a ∈ q.2, asks a = true) →
        ∃ t r, exec i s = .next t ∧ r ∈ t.warp.pend ∧ r.dsts = f.dsts ∧ r.mask = act ∧ r.left = maskOfLanes ((q.2.filter asks).map LaneAcc.lane) ∧
          (∀ a ∈ q.2, asks a = false → ∀ k < f.dsts.length, laneOf (r.words.getD k []) a.lane = wordOf k a) ∧
          (∀ a ∈ q.2, asks a = true → ∃ k ∈ t.fabric.requests, a.lane ∈ k.lanes ∧ k.res = some r.id ∧ k.warp = w.ref ∧
            (∀ port hpa, a.way = .host port hpa → k.node = hostNode port ∧ k.off = BitVec.ofNat 64 hpa) ∧ ∀ n off, a.way = .remote n off → k.node = n ∧ k.off = off) ∧
          ∀ l < 32, t.warp.pcOf l = if act.has l then pc + 4#64 else w.pcOf l)
    ((o = 3#2 → s.orderWaits true (s.scopeAt (w.placeOf p)) = false) →
      ∀ lo hi, pairCodes a = [lo, hi] →
      loads (.ld d a p sz o x c) { reads := [lo, hi], slotA := [lo, hi], dsts := sizeCodes sz d }
        (fun l => laneAddr (w.placeOf p) (op lo) (op hi) (w.iss act pc).xoff l) o (if size < 4 then some (size, x == 1#1) else none)
        (if (w.placeOf p).toNat % 8 ≠ 1 ∧ w.shapeOf lo = .u ∧ w.shapeOf hi = .u then .u else .g)) ∧
    (o = 3#2 → s.orderWaits true (s.scopeAt (w.placeOf p)) = true → w.acquiring = false →
      ∀ lo hi, pairCodes a = [lo, hi] → s.Issues (.ld d a p sz o x c) { reads := [lo, hi], slotA := [lo, hi], dsts := sizeCodes sz d } act pc →
      ∃ t h, exec (.ld d a p sz o x c) s = .next t ∧ t.warp.held = some h ∧ h.i = .ld d a p sz o x c ∧ h.act = act ∧ h.pc = pc ∧
        t = { s with warp := t.warp, nextId := t.nextId } ∧ ∀ l < 32, t.warp.pcOf l = if act.has l then pc + 4#64 else w.pcOf l) ∧
    loads (.ldp d a sz c) { reads := [a], slotA := [a], dsts := sizeCodes sz d } (fun l => privAddr [op a] l) 0#2 none .g

/-- R216, R218, R220, R236, R281: a store whose lanes are all clean puts what they write into its core's store queue, as entries of one instruction:
the bytes for device memory sector by sector with the highest lane last, and for each lane of another node a counted write, or of host memory one of
its bytes there; and changes nothing else but what its translations changed, the indices it took and the peer lines of what it wrote (R201), and, for
a sequentially consistent one, what the dies have applied (R265). One that must wait is held, and its warp goes on (R236). The model's choice (log
71): a release of a scope narrower than the device first marks the warp's stores that are still in the queue, for the members of the scope, and does
not wait for them. R215, R379, R380: poison never reaches memory by itself. A store each of whose lanes has a poisoned address, an address that
faults, another node whose send channel the context does not own (R280), or poisoned data for device memory, sets the region-poison flag and puts
nothing into the store queue of any core; where the Rack has room it holds, of each lane with a poisoned address, that token, and of each whose
address faults, the token of its cause; and memory is unchanged where no fault makes an entry and no sector holds an error. -/
def Obligations.Stores : Prop :=
  (∀ (s : State) (act : Mask) (pc : DWord) (d a : Code) (p : BitVec 2) (sz : BitVec 3) (o : BitVec 2) (c : BitVec 1),
     let w := s.warp
     let op := fun c => (w.rawSource c).1
     let size := 2 ^ sz.toNat
     let chan := (w.iss act pc).chan
     let stores := fun (i : Instr) (f : Form) (addr : Nat → BitVec 16 × (Word ⊕ DWord)) (ds : List Code) (o : BitVec 2) (z : State) (lines : Nat) =>
       let q := State.ways size size true addr (lanesOf act) z []
       let bytes := fun l => storeBytes size (ds.map fun c => w.valueOf c l)
       let ws := q.2.foldl (fun ws a => match a.way with
         | .mem _ ps => (cutPieces ps (bytes a.lane)).foldl (fun ws p => mergeBytes ws p.1 p.2) ws
         | _ => ws) ([] : List SectorWrite)
       let sc := scopeOf (w.iss act pc).scope (q.2.filter (q.1.cleanTarget s.myDie))
       let m := if o = 3#2 ∧ 5 ≤ sc then q.1.mem.sync else q.1.mem
       let m := if o = 3#2 ∧ 6 ≤ sc then { m with peers := m.peers.filter fun y => y.die != s.myDie } else m
       let far := q.2.filter fun a => match a.way with
         | .mem _ _ => false
         | _ => true
       s.Issues i f act pc → w.acquiring = false → s.myLaunch.paired = false → s.storeFull lines = false →
       (∀ a ∈ q.2, (∃ sp p ps, a.way = .mem sp (p :: ps)) ∨ (∃ port hpa, a.way = .host port hpa) ∨
         ∃ n off, a.way = .remote n off ∧ q.1.ownsSend s.myTag n chan = true) →
       (∀ l < 32, act.has l = true → ∀ c ∈ ds, (w.valueOf c l).psn = false) →
       ∃ t es, exec i s = .next t ∧ w.Keeps t.warp act (fun _ => pc + 4#64) false ∧ t.warp.spill = w.spill ∧ t.warp.region = w.region ∧
         (es.take ws.length).map StoreEntry.act = ws.map StoreAct.mem ∧ es.length = ws.length + far.length ∧
         (∀ k a, far[k]? = some a → ∃ e, es[ws.length + k]? = some e ∧
           (∀ port hpa, a.way = .host port hpa →
             e.act = .host port hpa ((List.range (bytes a.lane).length).map fun i => (hpa + i, (bytes a.lane).getD i 0#8)) false) ∧
           ∀ n off, a.way = .remote n off → ∃ pkt, e.act = .remote n pkt ∧ pkt.src = s.fabric.node ∧ pkt.chan = chan ∧ pkt.off = off ∧
             pkt.sectors = sectorRun 4 off.toNat (bytes a.lane) ∧ pkt.atom = none) ∧
         (∀ e ∈ es, e.warp = w.ref ∧ e.tag = s.myTag ∧ e.grp = s.nextId) ∧
         t.cores = (q.1.modCore (s.coreOf w.ref.wg) fun k => { k with storeQ := k.storeQ ++ es }).cores ∧
         (far = [] → t.mem = m ∧ t.fabric = q.1.fabric) ∧ t.mem.base = m.base ∧ t.mem.log = m.log ∧ t.mem.vec = m.vec ∧
         t = { q.1 with warp := t.warp, cores := t.cores, nextId := t.nextId, mem := t.mem, fabric := t.fabric }
     ((o ≠ 0#2 → s.orderWaits (o == 3#2) (s.scopeAt (w.placeOf p)) = false) →
       ∀ lo hi, pairCodes a = [lo, hi] →
       stores (.st d a p sz o c) { reads := [lo, hi] ++ sizeCodes sz d, slotA := [lo, hi], slotB := sizeCodes sz d }
         (fun l => laneAddr (w.placeOf p) (op lo) (op hi) (w.iss act pc).xoff l) (sizeCodes sz d) o
         (if o = 0#2 then s else s.markRelease (s.scopeAt (w.placeOf p)))
         (linesOf ((w.placeOf p).toNat % 8) size (s.peekOffs (pairCodes a) 1 w.nextAct w.nextOff))) ∧
     (o ≠ 0#2 → s.orderWaits (o == 3#2) (s.scopeAt (w.placeOf p)) = true → w.acquiring = false →
       s.storeFull (linesOf ((w.placeOf p).toNat % 8) size (s.peekOffs (pairCodes a) 1 w.nextAct w.nextOff)) = false →
       ∀ lo hi, pairCodes a = [lo, hi] → s.Issues (.st d a p sz o c) { reads := [lo, hi] ++ sizeCodes sz d, slotA := [lo, hi], slotB := sizeCodes sz d } act pc →
       ∃ t h, exec (.st d a p sz o c) s = .next t ∧ t.warp.held = some h ∧ h.i = .st d a p sz o c ∧ w.Keeps t.warp act (fun _ => pc + 4#64) false ∧
         t = { s with warp := t.warp, nextId := t.nextId }) ∧
     stores (.stp d a sz c) { reads := a :: sizeCodes sz d, slotA := [a], slotB := sizeCodes sz d } (fun l => privAddr [op a] l) (sizeCodes sz d) 0#2
       s (linesOf 1 size (s.peekOffs [a] 4 w.nextAct))) ∧
  (∀ (s : State) (act : Mask) (pc : DWord) (d a lo hi : Code) (p : BitVec 2) (sz : BitVec 3) (o : BitVec 2) (c : BitVec 1),
     pairCodes a = [lo, hi] →
     let w := s.warp
     let op := fun c => (w.rawSource c).1
     let size := 2 ^ sz.toNat
     let chan := (w.iss act pc).chan
     let q := State.ways size size true (fun l => laneAddr (w.placeOf p) (op lo) (op hi) (w.iss act pc).xoff l) (lanesOf act) s []
     let fs := q.1.laneFaults chan (fun l => (firstPoison ((sizeCodes sz d).map fun c => w.valueOf c l)).isNone) q.2
     let toks := (q.1.tokensFor pc fs).2
     let room := (s.coreAt (s.coreOf w.ref.wg)).rack.length + 32 * 8 ≤ 512
     s.Issues (.st d a p sz o c) { reads := [lo, hi] ++ sizeCodes sz d, slotA := [lo, hi], slotB := sizeCodes sz d } act pc →
     act ≠ 0#32 → w.acquiring = false → o = 0#2 →
     s.storeFull (linesOf ((w.placeOf p).toNat % 8) size (s.peekOffs (pairCodes a) 1 w.nextAct w.nextOff)) = false →
     (∀ a ∈ q.2, (∃ t, a.way = .bad t) ∨ (∃ k sp x, a.way = .fault k sp x) ∨ (∃ n off, a.way = .remote n off ∧ q.1.ownsSend s.myTag n chan = false) ∨
       ((∃ sp ps, a.way = .mem sp ps) ∧ ∃ c ∈ sizeCodes sz d, (w.valueOf c a.lane).psn = true)) →
     ∃ t, exec (.st d a p sz o c) s = .next t ∧ t.warp.region.flag = true ∧ (∀ k, (t.coreAt k).storeQ = (s.coreAt k).storeQ) ∧
       (s.svc.errors = [] → room → fs = [] → t.mem = s.mem) ∧
       (room → s.coreOf w.ref.wg < s.cores.length → ∀ a ∈ q.2,
         (∀ k, a.way = .bad k → ∃ e ∈ t.rackOf w.ref, e.off = none ∧ e.token = k) ∧
         ∀ k sp x, a.way = .fault k sp x → ∃ e ∈ t.rackOf w.ref, e.off = none ∧ e.token = tokenIn toks k) ∧
       ∀ l < 32, t.warp.pcOf l = if act.has l then pc + 4#64 else w.pcOf l)

/-- R225 to R227, R215, R216: the active lanes of an atomic on clean device memory act one after another, in lane order, each indivisibly; ATOM gives
each lane the old value, ATOMN none. One lane's access replaces the value at its address by the operation of R226 in its die's view, and no other byte
of that view. A lane whose address is poisoned or faults, or whose send channel the context does not own, performs nothing: ATOM gives it its token in
every word of VAL, and the region-poison flag is set. Lanes of another node and of host memory ask, one request each, and ATOMN's are counted writes
of one instruction (R236, R281). R216, R226, R227: one lane's atomic on an aligned word or double word of device memory that no stash line holds: it
delivers the value there, and the view then holds the operation's result there and every other byte as before. R226: the operations. The results for
words with the sources of the table, and CAS by its comparand. -/
def Obligations.Atomics : Prop :=
  (∀ (s : State) (act : Mask) (pc : DWord) (v a lo hi : Code) (p : BitVec 2) (op : BitVec 4) (r : BitVec 2) (wd : BitVec 1),
     pairCodes a = [lo, hi] →
     let w := s.warp
     let src := fun c => (w.rawSource c).1
     let n := if wd = 0#1 then 4 else 8
     let q := State.ways n n true (laneAddr (w.placeOf p) (src lo) (src hi) (w.iss act pc).xoff) (lanesOf act) s []
     let opOf := fun l => atomOf op wd (w.iss act pc).env.rm ((valCodes op wd v).map fun c => w.valueOf c l)
     let run := q.2.foldl (fun (z : State × List (Nat × Nat)) a => match a.way with
       | .mem _ ((pa, _) :: _) => (match z.1.atomAt s.myDie s.myTag [] (opOf a.lane) pa with
         | (t, some old, _) => (t, z.2 ++ [(a.lane, old)])
         | (t, none, _) => (t, z.2))
       | _ => z) (q.1, [])
     let f : Form := { reads := [lo, hi] ++ valCodes op wd v, slotA := [lo, hi], slotB := valCodes op wd v }
     let chan := (w.iss act pc).chan
     let toks := (q.1.tokensFor pc (q.1.laneFaults chan (fun _ => true) q.2)).2
     let full := s.storeFull (linesOf ((w.placeOf p).toNat % 8) n (s.peekOffs [lo, hi] 1 w.nextAct w.nextOff))
     let old := fun l => (((run.2.find? fun g => g.1 == l).map Prod.snd).getD 0)
     let rs := (List.range (oldCodes wd v).length).map fun k =>
       ResWord.mk ((oldCodes wd v).getD k 0#8) .g fun l => Val.clean (BitVec.ofNat 32 (old l / 2 ^ (32 * k)))
     s.Plain → w.acquiring = false → s.myLaunch.paired = false → s.countingCopy = false →
     (r = 2#2 ∨ r = 3#2 → s.orderWaits false (s.scopeAt (w.placeOf p)) = false) →
     (∀ l < 32, act.has l = true → ∀ c ∈ valCodes op wd v, (w.valueOf c l).psn = false) →
     ((∀ a ∈ q.2, ∃ sp p ps, a.way = .mem sp (p :: ps)) → run.2.length = q.2.length →
     (s.Issues (.atom v a p op r wd) { f with dsts := oldCodes wd v } act pc → Warp.takesAll act rs (w.markDead f) →
       ∃ t, exec (.atom v a p op r wd) s = .next t ∧
         State.Result (if (r = 1#2 ∨ r = 3#2) ∧ 6 ≤ scopeOf (w.iss act pc).scope q.2 then
           { run.1 with mem := { run.1.mem with peers := run.1.mem.peers.filter fun y => y.die != s.myDie }, l2 := t.l2 }
           else { run.1 with l2 := t.l2 }) t act pc rs 0#6) ∧
     (s.Issues (.atomn v a p op r wd) f act pc → full = false →
       ∃ t, exec (.atomn v a p op r wd) s = .next t ∧ w.Keeps t.warp act (fun _ => pc + 4#64) false ∧ t = { run.1 with warp := t.warp, l2 := t.l2 })) ∧
     ((∀ a ∈ q.2, (∃ t, a.way = .bad t) ∨ (∃ k sp x, a.way = .fault k sp x) ∨ ∃ n off, a.way = .remote n off ∧ q.1.ownsSend s.myTag n chan = false) →
       act ≠ 0#32 → (∀ c ∈ valCodes op wd v, isDrawer c = true) → s.Issues (.atom v a p op r wd) { f with dsts := oldCodes wd v } act pc →
       ∃ t, exec (.atom v a p op r wd) s = .next t ∧ t.warp.region.flag = true ∧
         ∀ a ∈ q.2, ∀ c ∈ valCodes op wd v, t.warp.valueOf c a.lane = Val.poison (match a.way with
           | .bad k => k
           | .fault k _ _ => tokenIn toks k
           | _ => tokenIn toks .protection)) ∧
     ((∀ a ∈ q.2, (∃ port hpa, a.way = .host port hpa ∧ ((s.svc.ports.getD port default).cxl = true ∨ atomHasRequest (opOf a.lane) = true)) ∨
         ∃ n off, a.way = .remote n off ∧ q.1.ownsSend s.myTag n chan = true) →
       act ≠ 0#32 → s.Issues (.atom v a p op r wd) { f with dsts := oldCodes wd v } act pc →
       ∃ t k, exec (.atom v a p op r wd) s = .next t ∧ k ∈ t.warp.pend ∧ k.dsts = oldCodes wd v ∧ k.mask = act ∧ k.left = maskOfLanes (q.2.map LaneAcc.lane) ∧
         ∀ a ∈ q.2, ∃ x ∈ t.fabric.requests, x.lanes = [a.lane] ∧ x.res = some k.id ∧ x.atom = some (opOf a.lane) ∧
           (∀ port hpa, a.way = .host port hpa → x.node = hostNode port ∧ x.off = BitVec.ofNat 64 hpa) ∧ ∀ n off, a.way = .remote n off → x.node = n ∧ x.off = off) ∧
     ((∀ a ∈ q.2, ∃ n off, a.way = .remote n off ∧ q.1.ownsSend s.myTag n chan = true) → s.Issues (.atomn v a p op r wd) f act pc → full = false →
       ∃ (t : State) (es : List StoreEntry), exec (.atomn v a p op r wd) s = .next t ∧ w.Keeps t.warp act (fun _ => pc + 4#64) false ∧ es.length = q.2.length ∧
         t.cores = (q.1.modCore (s.coreOf w.ref.wg) fun k => { k with storeQ := k.storeQ ++ es }).cores ∧ (∀ e ∈ es, e.warp = w.ref ∧ e.grp = s.nextId) ∧
         ∀ (k : Nat) (a : LaneAcc), q.2[k]? = some a → ∀ n off, a.way = .remote n off → ∃ (e : StoreEntry) (pkt : WritePacket), es[k]? = some e ∧ e.act = .remote n pkt ∧ pkt.off = off ∧ pkt.chan = chan ∧
           pkt.atom = some (opOf a.lane))) ∧
  (∀ (s : State) (die tag pa : Nat) (a : AtomOp) (old : Nat) (t : State) (k : Word),
     die < 5 → s.mem.vec.length = 5 → (∀ v ∈ s.mem.vec, v.length = 5) → (∀ l ∈ s.mem.log, l.origin < 5 ∧ s.mem.hasApplied l.origin l = true) →
     s.locate pa = none → s.locate (pa / 32 * 32) = none → pa % (if a.wide then 8 else 4) = 0 → s.memWf = true →
     s.atomAt die tag [] a pa = (t, some old, k) →
     let n := if a.wide then 8 else 4
     let m := (s.mem.catchUp die pa).view die
     old = m.nat pa n ∧ m.token pa = none ∧ (t.mem.view die).nat pa n = atomApply a old % 2 ^ (8 * n) ∧
       (∀ b, b < pa ∨ pa + n ≤ b → (t.mem.view die).byte b = m.byte b) ∧ ∀ b, (t.mem.view die).token b = m.token b) ∧
  (∀ (o x y : Word) (rm : Nat),
     let r := fun n => atomApply { aop := n, wide := false, rm := rm, operand := x.setWidth 64, comparand := y.setWidth 64 } o.toNat
     r 0 = (o + x).toNat ∧ r 1 = (if x.toInt < o.toInt then x else o).toNat ∧ r 2 = min o.toNat x.toNat ∧
     r 3 = (if o.toInt < x.toInt then x else o).toNat ∧ r 4 = max o.toNat x.toNat ∧ r 5 = (o &&& x).toNat ∧ r 6 = (o ||| x).toNat ∧
     r 7 = (o ^^^ x).toNat ∧ r 8 = x.toNat ∧ r 9 = (if o.toNat < x.toNat then o.toNat + 1 else 0) ∧
     r 10 = (if o = 0#32 ∨ x.toNat < o.toNat then x.toNat else o.toNat - 1) ∧ r 14 = (if o = y then x else o).toNat)

/-- R222, R228, R229, R236, R265: a FENCE whose waits are over acts as an acquire but for KIND 2, makes what every die sees one for KIND 3 at device
scope and above, and changes nothing else but the PCs; one that must wait issues and is held, and its warp goes on. The model's choice (log 71): below
device scope a release does not wait for the warp's stores that are still in the queue, but marks them for the members of its scope. -/
def Obligations.Fences : Prop :=
  ∀ (s : State) (act : Mask) (pc : DWord) (k : BitVec 2) (sc : BitVec 3),
    let scope := if sc = 0#3 then 5 else sc.toNat
    let waits := if k = 1#2 then s.asking s.warp.ref else s.mustWait scope || (k == 3#2 && !s.drained s.warp.ref)
    s.Issues (.fence k sc) { reads := [] } act pc → s.warp.acquiring = false →
    (waits = false → ∃ t, exec (.fence k sc) s = .next t ∧ s.warp.Keeps t.warp act (fun _ => pc + 4#64) false ∧ t.warp.region = s.warp.region ∧
      t = { s with
        warp := t.warp
        cores := (if k = 1#2 then s else s.markRelease scope).cores
        mem := (fun d => if k = 3#2 ∧ 5 ≤ scope then DevMem.sync d else d)
          (if k ≠ 2#2 ∧ 6 ≤ scope then { s.mem with peers := s.mem.peers.filter fun y => y.die != s.myDie } else s.mem) }) ∧
    (waits = true → ∃ t h, exec (.fence k sc) s = .next t ∧ s.warp.Keeps t.warp act (fun _ => pc + 4#64) false ∧ t.warp.held = some h ∧ h.i = .fence k sc ∧
      t = { s with warp := t.warp, nextId := t.nextId })

/-- R222, R236, R265, R283, R284: an STC each of whose lanes names SPACE 0 of another node over a channel that its context owns forms, once every
earlier access of its thread is performed, whatever SCOPE its MOD gives, one flag for each active lane, in lane order, with the lane's value and the
count of the channel, and changes nothing else but what its translations changed and what a sequentially consistent STC makes every die see. Until
then it has issued and is held, and its warp goes on. R294, R295: a WAITV on device memory. Where the condition holds in every active lane at the
first test it ends at once, with the word read and 0 in its pair; where it fails in some lane and the time is not 0 the warp waits. Either way it is a
deschedule point. -/
def Obligations.CountedRelease : Prop :=
  (∀ (s : State) (act : Mask) (pc : DWord) (d a lo hi : Code) (p o : BitVec 2), pairCodes a = [lo, hi] →
     let w := s.warp
     let op := fun c => (w.rawSource c).1
     let q := State.ways 8 8 true (laneAddr (w.placeOf p) (op lo) (op hi) (w.iss act pc).xoff) (lanesOf act) s []
     let chan := (w.iss act pc).chan
     s.Issues (.stc d a p o) { reads := [lo, hi, d], slotA := [lo, hi], slotB := [d] } act pc →
     w.acquiring = false → s.countingCopy = false → s.myLaunch.paired = false →
     (s.released w.ref true = true → (∀ a ∈ q.2, ∃ n off, a.way = .remote n off ∧ s.ownsSend s.myTag n chan = true) →
       (∀ l < 32, act.has l = true → (w.valueOf d l).psn = false) →
       ∃ (t : State) (js : List FlagSend), exec (.stc d a p o) s = .next t ∧ w.Keeps t.warp act (fun _ => pc + 4#64) false ∧ t.warp.region = w.region ∧
         t.fabric = { q.1.fabric with sends := q.1.fabric.sends ++ js } ∧ js.length = q.2.length ∧
         (∀ (i : Nat) (a : LaneAcc), q.2[i]? = some a → ∀ n off, a.way = Way.remote n off →
           let count := ((s.fabric.send.find? fun x => x.node == n && x.chan == chan).map SendChan.count).getD 0#32
           let pkt : FlagPacket := { src := s.fabric.node, chan := chan, off := off, value := count ++ (w.valueOf d a.lane).bits, count := count }
           js[i]? = some (FlagSend.mk (q.1.nextId + i) w.ref n pkt)) ∧
         t.mem = (if o = 3#2 then (q.1.seqFence (scopeOf (w.iss act pc).scope q.2)).mem else q.1.mem) ∧
         t = { q.1 with warp := t.warp, fabric := t.fabric, nextId := t.nextId, mem := t.mem }) ∧
     (s.released w.ref true = false → ∃ t h, exec (.stc d a p o) s = .next t ∧ w.Keeps t.warp act (fun _ => pc + 4#64) false ∧
       t.warp.held = some h ∧ h.i = .stc d a p o ∧ t = { s with warp := t.warp, nextId := t.nextId })) ∧
  (∀ (s : State) (act : Mask) (pc : DWord) (v a lo hi vl vh : Code) (p : BitVec 2) (c : BitVec 4) (o : BitVec 2),
     pairCodes a = [lo, hi] → pairCodes v = [vl, vh] → act ≠ 0#32 →
     let w := s.warp
     let op := fun c => (w.rawSource c).1
     let addr := laneAddr (w.placeOf p) (op lo) (op hi) (w.iss act pc).xoff
     let q0 := State.ways 4 4 false addr (lanesOf act) s []
     let q := State.ways 4 4 false addr (lanesOf act) q0.1 []
     let read := fun l => match q.2.find? fun a => a.lane == l with
       | some { way := .mem _ (pl :: _), .. } => (s.mem.view s.myDie).readVal pl.1 pl.2
       | _ => Val.zero
     let holds := fun l => (read l).psn = true ∨ waitCond c.toNat (read l).bits (w.valueOf vl l).bits = true
     let rs := [ResWord.mk vl .g read, ResWord.mk vh .g fun l => if (read l).psn = true then read l else Val.clean 0#32]
     let i := Instr.waitv v a p c o
     s.Issues i { reads := [lo, hi, vl, vh], slotA := [lo, hi], slotB := [vl, vh], dsts := [vl, vh], point := true } act pc →
     s.Plain → w.acquiring = false → s.myLaunch.paired = false →
     (∀ a ∈ q0.2 ++ q.2, ∃ sp p ps, a.way = .mem sp (p :: ps)) → (∀ l < 32, act.has l = true → (w.valueOf vl l).psn = false) →
     (w.valueOf vh act.lowest).psn = false →
     ((∀ l < 32, act.has l = true → holds l) → Warp.takesAll act rs (w.markDead { reads := [], slotA := [lo, hi], slotB := [vl, vh] }) →
       ∃ t, exec i s = .next t ∧ t.warp.wait = .none ∧ (∀ l < 32, t.warp.pcOf l = if act.has l then pc + 4#64 else w.pcOf l) ∧
         (∀ r ∈ rs, isCab r.dst = true → ∀ l < 32, act.has l = true → t.warp.valueOf r.dst l = r.val l) ∧ t.warp.region = w.region) ∧
     ((∃ l < 32, act.has l = true ∧ ¬ holds l) → (w.valueOf vh act.lowest).bits ≠ 0#32 →
       ∃ t, exec i s = .next t ∧ t.warp.wait = .waitv ∧ t.warp.waitMask = act ∧ w.Keeps t.warp act (fun _ => pc + 4#64) true ∧ t.warp.region = w.region ∧
         ∀ l < 32, act.has l = true → (t.warp.waitv.fin.has l = true ↔ holds l)))

/-- R243, R252 to R254: with a clean mask of the workgroup's tags. A wait that the tags satisfy, and TFIRST always, delivers the report: the lowest
DONE tag, or 64, with its poison bit and the count; a poisoned DONE tag sets the region-poison flag. A wait they do not satisfy leaves the warp
waiting. TACK makes the DONE tags idle. -/
def Obligations.CompletionTags : Prop :=
  ∀ (s : State) (act : Mask) (pc : DWord) (d a lo hi : Code), pairCodes a = [lo, hi] → act ≠ 0#32 →
    let w := s.warp
    let g := s.myWg
    let m := (w.valueOf hi act.lowest).bits ++ (w.valueOf lo act.lowest).bits
    let f : Form := { reads := [lo, hi], slotA := [lo, hi], dsts := [d] }
    let done := (List.range 64).filter fun t => m.getLsbD t && (g.tagAt t).state == 2
    let report := match done with
      | [] => 64#32
      | t :: _ => BitVec.ofNat 32 (t + (if (g.tagAt t).psn then 128 else 0) + 256 * done.length)
    let rs := [ResWord.mk d (everyOther [w.shapeOf lo, w.shapeOf hi]) fun _ => Val.clean report]
    (w.valueOf lo act.lowest).psn = false → (w.valueOf hi act.lowest).psn = false → (∀ t < 64, m.getLsbD t = true → g.hasTag t = true) →
    ((∀ t ∈ done, (g.tagAt t).psn = false) → Gives s (.tfirst d a) f act pc rs 0#6) ∧
    (s.Issues (.tack a) { f with dsts := [] } act pc →
      ∃ t, exec (.tack a) s = .next t ∧ w.Keeps t.warp act (fun _ => pc + 4#64) false ∧ t.warp.region = w.region ∧ t = { s with warp := t.warp, wgs := t.wgs } ∧
        ∀ k, t.myWg.tagAt k = if k < 64 ∧ m.getLsbD k = true ∧ (g.tagAt k).state = 2 then TagSt.idle else g.tagAt k) ∧
    ∀ any, let i := if any then Instr.twaitAny d a else Instr.twaitAll d a
      let met := if any then (∀ t < 64, m.getLsbD t = false) ∨ ∃ t < 64, m.getLsbD t = true ∧ (g.tagAt t).state ≠ 1
        else ∀ t < 64, m.getLsbD t = true → (g.tagAt t).state ≠ 1
      s.Issues i { f with point := true } act pc →
      (met → Warp.takesAll act rs (w.markDead f) →
        ∃ t, exec i s = .next t ∧ t.warp.wait = .none ∧ (∀ l < 32, t.warp.pcOf l = if act.has l then pc + 4#64 else w.pcOf l) ∧
          (isCab d = true → ∀ l < 32, act.has l = true → t.warp.valueOf d l = Val.clean report) ∧ t = { s with warp := t.warp } ∧
          (t.warp.region.flag = true ↔ w.region.flag = true ∨ ∃ t ∈ done, (g.tagAt t).psn = true)) ∧
      (¬ met → ∃ t, exec i s = .next t ∧ t.warp.wait = .twait any m d ∧ t.warp.waitMask = act ∧ w.Keeps t.warp act (fun _ => pc + 4#64) true ∧
        t = { s with warp := t.warp, nextId := s.nextId + 1 })

/-- R230, R231, R232: an SMAP with clean legal values and a free tag of the workgroup makes its tag BUSY and starts the mapping; SUNMAP and SFLUSH,
once no SMAP of the workgroup is outstanding on what they name, withdraw it, or write it back and keep it; where no store of the warp is still in the
queue (R234) they change nothing else. -/
def Obligations.StashMaps : Prop :=
  ∀ (s : State) (act : Mask) (pc : DWord) (r a lo hi a0 a1 a2 a3 : Code) (tag : BitVec 6) (md : BitVec 3) (all : BitVec 1) (e : BitVec 5),
    act ≠ 0#32 →
    let w := s.warp
    let x := fun c => (w.valueOf c act.lowest).bits.toNat
    let wg := w.ref.wg
    (pairCodes r = [lo, hi] → quadCodes a = [a0, a1, a2, a3] →
      s.Issues (.smap r a tag md) { reads := [lo, hi, a0, a1, a2, a3], slotA := [lo, hi], slotB := [a0, a1, a2, a3] } act pc →
      (∀ c ∈ [lo, hi, a0, a1, a2, a3], (w.valueOf c act.lowest).psn = false) → s.myWg.hasTag tag.toNat = true → (s.myWg.tagAt tag.toNat).state ≠ 1 →
      s.myLaunch.paired = false → w.acquiring = false →
      smapBad s.stashSize (x lo + 2 ^ 32 * x hi) (x a0) (x a1) (x a2) (x a3) = false →
      ∃ t, exec (.smap r a tag md) s = .next t ∧ w.Keeps t.warp act (fun _ => pc + 4#64) false ∧ t.warp.region = w.region ∧
        (t.myWg.tagAt tag.toNat).state = 1 ∧
        t = { s with
          warp := t.warp, wgs := (s.tagBusy wg tag.toNat).wgs, nextId := s.nextId + 1
          smaps := s.smaps ++ [{ id := s.nextId, wg := wg, warp := w.ref, pc := pc, entry := x a2, gbase := x lo + 2 ^ 32 * x hi, soff := x a0, len := x a1
                                 pre := md == 1#3, tag := tag.toNat, registered := false }] }) ∧
    ((∀ j ∈ s.smaps, j.wg = wg → all = 0#1 ∧ j.entry ≠ e.toNat) → w.acquiring = false →
      let names := fun k => all = 1#1 ∨ k = e.toNat
      (s.Issues (.sunmap all e) { reads := [] } act pc →
        ∃ t, exec (.sunmap all e) s = .next t ∧ w.Keeps t.warp act (fun _ => pc + 4#64) false ∧
          (s.drained w.ref = true → t = { s with warp := t.warp, wgs := t.wgs, mem := t.mem }) ∧
          ∀ k, (t.myWg.smap.getD k default).valid = ((s.myWg.smap.getD k default).valid && !decide (names k))) ∧
      (s.Issues (.sflush all e) { reads := [] } act pc →
        ∃ t, exec (.sflush all e) s = .next t ∧ w.Keeps t.warp act (fun _ => pc + 4#64) false ∧
          (s.drained w.ref = true → t = { s with warp := t.warp, wgs := t.wgs, mem := t.mem }) ∧
          ∀ k, (t.myWg.smap.getD k default).valid = (s.myWg.smap.getD k default).valid ∧
            (names k → (s.myWg.smap.getD k default).valid = true → ∀ l ∈ (t.myWg.smap.getD k default).lines, l.2 = 0#4)))

/-- R240, R242, R244, R181: a copy with clean legal operands and a free tag of the workgroup makes its tag BUSY, lets the warp's stores leave, and
starts with the record at its address, the argument words and the direction and slot of its word; RFENCE drops the cached records of its context from
its core. R158, R160, R166 to R180, R182: a matrix instruction with clean legal operands takes the last place in its core's matrix queue, with the
values it will use; MLOOP and MOUT make their tag BUSY, MGET awaits its result, MLOOP takes the warp's MPERTURB arm, which MPERTURB sets where the
context may inject. -/
def Obligations.EngineIssue : Prop :=
  (∀ (s : State) (act : Mask) (pc : DWord) (r a lo hi a0 a1 a2 a3 : Code) (tag : BitVec 6) (sl : BitVec 3),
     pairCodes r = [lo, hi] → quadCodes a = [a0, a1, a2, a3] → act ≠ 0#32 →
     let w := s.warp
     let x := fun c => (w.valueOf c act.lowest).bits
     let wg := w.ref.wg
     let core := s.coreOf wg
     let starts := fun (i : Instr) (dir : Nat) (slot : Option Nat) =>
       s.Issues i { reads := [lo, hi, a0, a1, a2, a3], slotA := [lo, hi], slotB := [a0, a1, a2, a3] } act pc →
       s.copyRefused dir tag.toNat = false → (s.myWg.tagAt tag.toNat).state ≠ 1 → w.acquiring = false → (∀ k, slot = some k → k < s.myWg.wslot.length) →
       (∀ c ∈ [lo, hi, a0] ++ (if dir = 2 then [] else [a1, a2, a3]), (w.valueOf c act.lowest).psn = false) →
       (x lo).toNat % 64 = 0 → (x a0).toNat % 16 = 0 → (x a0).toNat < 2 ^ 20 →
       let u := (s.tagBusy wg tag.toNat).drainWhere core fun e => e.warp == w.ref
       ∃ t c, exec i s = .next t ∧ w.Keeps t.warp act (fun _ => pc + 4#64) false ∧ t.warp.region = w.region ∧
         t = { u with warp := t.warp, nextId := u.nextId + 1, copies := u.copies ++ [c] } ∧
         c.id = u.nextId ∧ c.wg = wg ∧ c.warp = w.ref ∧ c.pc = pc ∧ c.dir = dir ∧ c.tag = tag.toNat ∧ c.recAddr = (x lo).toNat + 2 ^ 32 * (x hi).toNat ∧
         c.args = [x a0, x a1, x a2, x a3] ∧ c.xloadw = slot.isSome ∧ c.slot = slot.getD 0 ∧ c.record = none ∧ c.cursor = 0 ∧ c.sectors = 0 ∧
         c.psn = false ∧ c.finished = false ∧ c.chan = (w.iss act pc).chan ∧ c.arr = (w.iss act pc).arr
     starts (.xcopyG2s r a tag) 0 none ∧ starts (.xcopyS2g r a tag) 1 none ∧ starts (.xcopyS2c r a tag) 2 none ∧ starts (.xcopyMcast r a tag) 3 none ∧
     starts (.xcopyRemote r a tag) 4 none ∧ starts (.xloadw r a tag sl) 0 (some sl.toNat) ∧
     (s.Issues .rfence { reads := [] } act pc →
       ∃ t, exec .rfence s = .next t ∧ w.Keeps t.warp act (fun _ => pc + 4#64) false ∧
         t = { s with warp := t.warp, cores := (s.modCore core fun k => { k with recCache := k.recCache.filter fun e => e.1 != s.myTag }).cores })) ∧
  (∀ (s : State) (act : Mask) (pc : DWord) (n fm : BitVec 4) (a c d c0 c1 c2 c3 : Code) (m : BitVec 1), act ≠ 0#32 →
     let w := s.warp
     let g := s.myWg
     let x := fun c => (w.valueOf c act.lowest).bits
     let env := (w.iss act pc).env
     let core := s.coreOf w.ref.wg
     let queues := fun (i : Instr) (f : Form) (k : MatKind) (busy : Option Nat) (ok : MatEntry → Prop) =>
       s.Issues i f act pc → n.toNat < g.acc.length → s.queueFull = false → (∀ t, busy = some t → g.hasTag t = true ∧ (g.tagAt t).state ≠ 1) →
       ∃ t e, exec i s = .next t ∧ (∀ l < 32, t.warp.pcOf l = if act.has l then pc + 4#64 else w.pcOf l) ∧
         (f.dsts = [] → w.Keeps t.warp act (fun _ => pc + 4#64) false) ∧ t.warp.region = w.region ∧
         t.cores = (s.modCore core fun k => { k with queue := k.queue ++ [e] }).cores ∧
         t.wgs = (match busy with
           | some t => (s.tagBusy w.ref.wg t).wgs
           | none => s.wgs) ∧
         t = { s with warp := t.warp, cores := t.cores, wgs := t.wgs, nextId := t.nextId } ∧
         e.kind = k ∧ e.slot = n.toNat ∧ e.wg = w.ref.wg ∧ e.warp = w.ref ∧ e.pc = pc ∧ e.done = 0 ∧ e.token = none ∧ ok e
     (quadCodes c = [c0, c1, c2, c3] →
       let vals := aopCodes a ++ [c0, c1, c2, c3]
       let scs := if ctlSc (x c0) then (match w.hints.scale with
         | some (p, q) => [p, q]
         | none => []) else []
       let a0 := if a.toNat < 0xF8 then (x a).toNat else 0
       (∀ c ∈ vals, (w.valueOf c act.lowest).psn = false) → (∀ c ∈ scs, ∀ l < 32, (w.valueOf c l).psn = false) →
       mloopBad g fm.toNat a.toNat w.hints.scale.isSome a0 (x c0) (x c1) (x c2) (x c3) = false →
       queues (.mloop n fm a c m) { reads := vals ++ scs, slotA := aopCodes a, wide := scs } .mloop
         (if ctlSettag (x c0) then some (ctlTag (x c0)) else none) fun e =>
           e.fmt = fm.toNat ∧ e.aop = a.toNat ∧ e.acm = (m == 1#1) ∧ e.rm = env.rm ∧ e.sat = env.sat ∧ e.a0 = a0 ∧ e.ctl = [x c0, x c1, x c2, x c3] ∧
           e.perturb = (if ctlCount (x c0) = 0 then none else w.perturb)) ∧
     queues (.mzero n) { reads := [] } .mzero none (fun _ => True) ∧
     (∀ lo hi, pairCodes a = [lo, hi] → queues (.mscale n a) { reads := [lo, hi], slotA := [lo, hi], wide := [lo, hi] } .mscale none fun e =>
       e.rm = env.rm ∧ e.sat = env.sat ∧ ∀ i < 64, e.vals.getD i Val.zero = w.valueOf (if i < 32 then lo else hi) (i % 32)) ∧
     (quadCodes c = [c0, c1, c2, c3] → (∀ c ∈ [a, c0, c1, c2, c3], (w.valueOf c act.lowest).psn = false) →
       moutBad g fm.toNat (x a).toNat (x c0) (x c2) (x c3) = false →
       queues (.mout n fm a c) { reads := [a, c0, c1, c2, c3], slotA := [a] } .mout (some (bitsAt (x c0).toNat 16 6)) fun e =>
         e.fmt = fm.toNat ∧ e.rm = env.rm ∧ e.sat = env.sat ∧ e.a0 = (x a).toNat ∧ e.ctl = [x c0, x c1, x c2, x c3]) ∧
     queues (.mget d a n) { reads := [a], slotA := [a], dsts := pairCodes d } .mget none (fun e =>
       e.act = act ∧ (∀ l < 32, laneOf e.rows l = w.valueOf a l)) ∧
     (∀ lo hi, pairCodes a = [lo, hi] → queues (.mput d a n) { reads := [lo, hi, d], slotA := [lo, hi] } .mput none fun e =>
       e.act = act ∧ (∀ l < 32, laneOf e.rows l = w.valueOf d l) ∧ ∀ j < 64, e.vals.getD j Val.zero = if act.has (j / 2) then w.valueOf (if j % 2 = 0 then lo else hi) (j / 2) else Val.zero) ∧
     (s.Issues (.mperturb a d) { reads := [a, d], slotA := [a], slotB := [d] } act pc → (s.ctx s.myTag).inject = true →
       (w.valueOf a act.lowest).psn = false →
       ∃ t, exec (.mperturb a d) s = .next t ∧ s.Stays t act (fun _ => pc + 4#64) false ∧
         t.warp.perturb = some ((x a).toNat % 4096, w.valueOf d act.lowest) ∧ t.warp.region = w.region))

/-- R330, R331: an arrival counts its warp once its every lane, or an exited lane of a spatial warp, has arrived; the phase completes where PEND
reaches EXPECT, and lets go every warp that waits for it. WAIT waits for the phase in which the warp last arrived; SYNC arrives and waits; EXPECT sets
the count. R332: GBAR in a cooperative launch arrives on the grid barrier and waits for its phase, which completes where every warp of the grid has
arrived or ended: then every die has applied what the members' releases cover (R273). A task warp is no member; it only waits (log 61). -/
def Obligations.Barriers : Prop :=
  (∀ (s : State) (act : Mask) (pc : DWord) (a : Code) (im : BitVec 4),
     let w := s.warp
     let n := im.toNat
     let b := s.myWg.bar n
     let full := fun m => m ||| (if w.isTask then 0#32 else w.exited) = fullMask
     let pend := b.pend + (if full (b.arrOf w.ref ||| act) ∧ ¬ full (b.arrOf w.ref) then 1 else 0)
     let tested := fun (t : State) (expect pend : Nat) (arr : Mask) =>
       let c := t.myWg.bar n
       c.expect = expect ∧ c.phase = (if expect ≤ pend then b.phase + 1 else b.phase) ∧
       c.pend = (if expect ≤ pend then s.goneCount w.ref.wg else pend) ∧ c.arrOf w.ref = (if expect ≤ pend then 0#32 else arr) ∧
       (∀ x ∈ t.parked, x.ref.wg = w.ref.wg → ∀ q, x.wait = .bar n q → q = c.phase.toNat) ∧
       t.parked.map (fun x => { x with wait := .none }) = s.parked.map (fun x => { x with wait := .none }) ∧
       t = { s with warp := t.warp, wgs := t.wgs, parked := t.parked }
     n < s.myWg.bars.length → n < s.myLaunch.krec.nbar →
     (s.Issues (.barArrive im) { reads := [] } act pc → s.released w.ref false = true →
       ∃ t, exec (.barArrive im) s = .next t ∧ w.Keeps t.warp act (fun _ => pc + 4#64) false ∧ tested t b.expect pend (b.arrOf w.ref ||| act) ∧
         ((t.myWg.bar n).lastOf w.ref = some b.phase)) ∧
     (s.Issues (.barWait im) { reads := [], point := true } act pc →
       let q := (b.lastOf w.ref).getD b.phase
       ∃ t, exec (.barWait im) s = .next t ∧ w.Keeps t.warp act (fun _ => pc + 4#64) true ∧ t = { s with warp := t.warp } ∧
         t.warp.wait = (if b.phase = q then .bar n q.toNat else .none)) ∧
     (s.Issues (.barSync im) { reads := [], point := true } act pc → s.released w.ref false = true →
       ∃ t, exec (.barSync im) s = .next t ∧ w.Keeps t.warp act (fun _ => pc + 4#64) true ∧ tested t b.expect pend (b.arrOf w.ref ||| act) ∧
         t.warp.wait = (if b.expect ≤ pend then .none else .bar n b.phase.toNat)) ∧
     (let v := (w.valueOf a act.lowest).bits.toNat
      s.Issues (.barExpect a im) { reads := [a], slotA := [a] } act pc → act ≠ 0#32 → (w.valueOf a act.lowest).psn = false → 1 ≤ v → v ≤ 4095 →
       ∃ t, exec (.barExpect a im) s = .next t ∧ w.Keeps t.warp act (fun _ => pc + 4#64) false ∧ tested t v b.pend (b.arrOf w.ref))) ∧
  (∀ (s : State) (act : Mask) (pc : DWord),
     let w := s.warp
     let g := s.myWg
     let b := s.gridBar g
     let full := fun m => m ||| w.exited = fullMask
     let pend := b.pend + (if w.isTask = false ∧ full (b.arrOf w.ref ||| act) ∧ ¬ full (b.arrOf w.ref) then 1 else 0)
     s.Issues .gbar { reads := [], point := true } act pc → g.replica < s.myLaunch.gbars.length → s.released w.ref false = true →
     ∃ t, exec .gbar s = .next t ∧ w.Keeps t.warp act (fun _ => pc + 4#64) true ∧
       t = { s with warp := t.warp, launches := t.launches, parked := t.parked, mem := if b.expect ≤ pend then s.mem.sync else s.mem } ∧
       (t.gridBar g).phase = (if b.expect ≤ pend then b.phase + 1 else b.phase) ∧ (t.gridBar g).pend = (if b.expect ≤ pend then s.gridGone g else pend) ∧
       t.warp.wait = (if b.expect ≤ pend then .none else .gbar b.phase.toNat) ∧
       ∀ x ∈ t.parked, ∀ h, s.wgOf x.ref.wg = some h → h.launch = g.launch → h.replica = g.replica → ∀ q, x.wait = .gbar q → q = (t.gridBar g).phase.toNat)

/-- R333 to R336: a SPAWN whose lanes hold records that are legal and clean, with room in the quota and the core's queue, queues one task for each
active lane, in lane order, and gives each 0; a JOINC whose lanes all join gives each the count that its join leaves, and one join takes 1 from the
count in memory. -/
def Obligations.Tasks : Prop :=
  ∀ (s : State) (act : Mask) (pc : DWord) (d a lo hi : Code), pairCodes a = [lo, hi] →
    let w := s.warp
    let op := fun c => (w.rawSource c).1
    let g := s.myWg
    let m := s.mem.view s.myDie
    let f : Form := { reads := [lo, hi], slotA := [lo, hi], dsts := [d] }
    let ways := fun write => State.ways 32 32 write (taskAddr [op lo, op hi]) (lanesOf act) s []
    s.Plain → w.acquiring = false → s.released w.ref false = true → s.myLaunch.paired = false →
    (let q := ways false
     let recs := q.2.filterMap fun a => match a.way with
      | .mem _ ((pa, _) :: _) => some (parseTask a.off.toNat (m.bytes pa 32))
      | _ => none
     let rs := [ResWord.mk d .g fun _ => Val.clean 0#32]
     s.Issues (.spawn d a) f act pc → Warp.takesAll act rs (w.markDead f) →
     (∀ a ∈ q.2, ∃ sp pa k ps, a.way = .mem sp ((pa, k) :: ps) ∧ m.token pa = none) →
     (∀ r ∈ recs, s.myLaunch.krec.taskOk r = true ∧ r.cont = false) →
     (s.launchOf g.launch).outstanding + recs.length ≤ s.myLaunch.pkt.tquota → (s.queuedOn g.core g.launch).length + recs.length ≤ 256 →
     ∃ t, exec (.spawn d a) s = .next t ∧
      State.Result { (q.1.modLaunch g.launch fun l => { l with outstanding := l.outstanding + recs.length }).modCore g.core
        (fun c => { c with taskQ := c.taskQ ++ recs.map fun r => (g.launch, r) }) with l2 := t.l2 } t act pc rs 0#6) ∧
    (let q := ways true
     let run := q.2.foldl (fun (z : State × List (Nat × TaskOut)) a => match a.way with
      | .mem _ ((pa, _) :: _) =>
        let r := z.1.joincAt g.core g.launch s.myDie g.tag [] a.off.toNat pa
        (r.1, z.2 ++ [(a.lane, r.2)])
      | _ => z) (q.1, [])
     let val := fun l => match (run.2.find? fun o => o.1 == l).map Prod.snd with
      | some (.value n) => BitVec.ofNat 32 n
      | _ => 0#32
     let rs := [ResWord.mk d .g fun l => Val.clean (val l)]
     s.Issues (.joinc d a) f act pc → Warp.takesAll act rs (w.markDead f) →
     (∀ a ∈ q.2, ∃ sp p ps, a.way = .mem sp (p :: ps)) → (∀ o ∈ run.2, ∃ n, o.2 = .value n) →
     ∃ t, exec (.joinc d a) s = .next t ∧ State.Result { run.1 with l2 := t.l2 } t act pc rs 0#6) ∧
    (∀ core id die tag addr pa n t, s.locate pa = none → s.joincAt core id die tag [] addr pa = (t, .value n) →
      n + 1 = ((s.mem.catchUp die pa).view die).nat (pa + 16) 4)

/-- R378, R381, R383: RGN opens a region at the next word, after a COMMIT.X where entries are held or the flag is set; COMMIT.X, and COMMIT.P outside
a paired launch, write each entry of the region as poison, discard it and close the region. R385: COMMIT.R closes the region where the flag is clear;
waits for service, if it has asked for any, where the region may be replayed; and otherwise acts as COMMIT.B. It is a deschedule point. The replay
discards the region's entries, clears the flag and what it gathered, counts, and restarts the region. R383, R391: a COMMIT.P of a paired launch waits
with the cycle at which it began, its replica's clean and poisoned writes held: where the region is flagged each of its poisoned entries becomes a
held one whose whole sector is poison. Where the partner has ended at the same count and nothing was held, and the warp's own was an EXIT's, the wait
ends without a mismatch (how these commits close: log 17). After 2^20 cycles it ends in a mismatch: where its region is open and has not replayed,
both replicas discard the region's entries and restart it; otherwise the warp keeps no entry and closes its region. -/
def Obligations.RegionAndCommitX : Prop :=
  (∀ (s : State) (act : Mask) (pc : DWord),
     let w := s.warp
     let r := w.region
     let closed : Region := { r with
       opened := false, flag := false, causes := 0#64, nsvc := false, sreq := 0, first := 0#32, replays := 0, rseq := r.heldSeq, mismatched := false }
     let step := fun t : State => ∀ l < 32, t.warp.pcOf l = if act.has l then pc + 4#64 else w.pcOf l
     let commits := fun (i : Instr) => s.Issues i { reads := [] } act pc → w.partialGroup = false → s.commitStall = false → s.myLaunch.paired = false →
       ∃ t, exec i s = .next t ∧ t.warp.region = closed ∧ (∀ e ∈ t.rackOf w.ref, e.seq < r.rseq) ∧ w.Keeps t.warp act (fun _ => pc + 4#64) false ∧
         (r.overflowed = false → t = { s.regionEntries.foldl (fun s e => s.writeEntry e (some e.token)) s.discardRegion with warp := t.warp })
     commits .commitX ∧ commits .commitP ∧
     (s.Issues .rgn { reads := [] } act pc → r.opened = false →
       (r.flag = false → s.rackOf w.ref = [] →
         ∃ t, exec .rgn s = .next t ∧ s.Stays t act (fun _ => pc + 4#64) false ∧
           t.warp.region = { r with opened := true, rpc := pc + 4#64, rseq := r.heldSeq, replays := 0 }) ∧
       (r.flag = true ∨ s.rackOf w.ref ≠ [] → s.commitStall = false →
         ∃ t, exec .rgn s = .next t ∧ step t ∧ t.warp.region = { closed with opened := true, rpc := pc + 4#64, rseq := r.heldSeq, replays := 0 }))) ∧
  (∀ (s : State) (act : Mask) (pc : DWord) (o : BitVec 17),
     let w := s.warp
     let r := w.region
     let calm : Region := { r with flag := false, causes := 0#64, nsvc := false, sreq := 0, first := 0#32 }
     let closed : Region := { calm with opened := false, replays := 0, rseq := r.heldSeq, mismatched := false }
     let dropped := (s.modCore (s.coreOf w.ref.wg) fun c => { c with rack := c.rack.filter fun e => !(e.warp == w.ref && decide (r.rseq ≤ e.seq)) }).cores
     (s.Issues (.commitR o) { reads := [], point := true } act pc → w.partialGroup = false → s.commitWaits = false →
       ∃ t, exec (.commitR o) s = .next t ∧
         (r.flag = false → t.warp.region = closed ∧ w.Keeps t.warp act (fun _ => pc + 4#64) true ∧ t = { s with warp := t.warp }) ∧
         (r.flag = true → r.opened = true → r.nsvc = false → r.replays < 15 →
           t.warp.region = r ∧ t.warp.wait = .commitR o ∧ t.warp.waitMask = act ∧ w.Keeps t.warp act (fun _ => pc + 4#64) true ∧ t = { s with warp := t.warp }) ∧
         (r.flag = true → r.opened = false ∨ r.nsvc = true ∨ 15 ≤ r.replays →
           t.warp.region = closed ∧ w.Keeps t.warp act (fun _ => pc + BitVec.ofInt 64 (4 * o.toInt)) true ∧ t = { s with warp := t.warp, cores := dropped })) ∧
     (w.wait = .commitR o → w.status = .running → r.sreq = 0 ∨ 0 ≤ (BitVec.ofNat 32 (s.ctx s.myTag).srDone - BitVec.ofNat 32 r.sreq).toInt →
       ∃ t, exec (.commitRReplay w.ref) s = .next t ∧ t.warp.region = { calm with replays := r.replays + 1 } ∧ t.warp.wait = .none ∧
         (∀ l < 32, t.warp.pcOf l = if w.exited.has l then w.pcOf l else r.rpc) ∧ t = { s with warp := t.warp, cores := dropped })) ∧
  (∀ (s : State) (act : Mask) (pc : DWord) (start : Nat) (ex : Bool),
     let w := s.warp
     let r := w.region
     let p := s.partnerOf w.ref
     let kept := fun e : RackEntry => if r.flag = true ∧ r.rseq ≤ e.seq then
         (if e.poisoned = true ∧ e.off.isSome = true then
           { e with held := true, mask := 0xFFFFFFFF#32, pmask := 0xFF#8, data := (List.range 32).map fun i => (natLE 4 e.token.toNat).getD (i % 4) 0#8 }
          else { e with held := true })
       else e
     let restarts := fun (t : State) (u : Warp) (x : Warp) => x.region = { u.region with mismatched := true } ∧
       (∀ l < 32, x.pcOf l = if u.exited.has l then u.pcOf l else u.region.rpc) ∧
       (s.svc.wordErrors = [] → t.rackOf u.ref = (s.rackOf u.ref).filter fun e => decide (e.seq < u.region.rseq))
     (s.Issues .commitP { reads := [] } act pc → w.partialGroup = false → s.commitStall = false → s.myLaunch.paired = true → p ≠ w.ref →
       ∃ t, exec .commitP s = .next t ∧ t.warp.wait = .commitP (s.ctr s.myDie) false ∧ w.Keeps t.warp act (fun _ => pc + 4#64) false ∧ t.warp.region = r ∧
         t.rackOf w.ref = (s.rackOf w.ref).map kept ∧ t = { s with warp := t.warp, cores := t.cores, parked := t.parked }) ∧
     (w.wait = .commitP start ex → w.status = .running →
       (s.getWarp p = none → ex = true → r.overflowed = false → s.rackOf w.ref = [] → s.rackOf p = [] →
         ∃ t, exec (.commitPMatch w.ref) s = .next t ∧ t.warp.wait = .none ∧ t.warp.region.opened = false ∧ t.warp.region.pcount = (r.pcount + 1) % 2 ^ 32) ∧
       (s.pairReady w = false → start + 2 ^ 20 ≤ s.ctr s.myDie → r.opened = true → r.mismatched = false → p ≠ w.ref →
         ∃ t, exec (.commitPTimeout w.ref) s = .next t ∧ t.warp.wait = .none ∧ restarts t w t.warp ∧
           ∀ y, s.getWarp p = some y → y.status = .running → y.region.opened = true → y.region.mismatched = false → y.region.pcount = r.pcount →
             ∃ x, t.getWarp p = some x ∧ restarts t y x) ∧
       (s.pairReady w = false → start + 2 ^ 20 ≤ s.ctr s.myDie → r.opened = false ∨ r.mismatched = true →
         ∃ t, exec (.commitPTimeout w.ref) s = .next t ∧ t.warp.wait = .none ∧ t.rackOf w.ref = [] ∧ t.warp.region.opened = false ∧
           t.warp.region.pcount = (r.pcount + 1) % 2 ^ 32)))

/-- R384: COMMIT.B with FLAG clear closes the region and goes on at PC + 4; with FLAG set it discards the region's entries, closes the region and goes
on at PC + 4 × OFF17. It writes nothing to memory. -/
def Obligations.CommitBranch : Prop :=
  ∀ (s : State) (act : Mask) (pc : DWord) (o : BitVec 17),
    let w := s.warp
    let r := w.region
    let closed : Region := { r with
      opened := false, flag := false, causes := 0#64, nsvc := false, sreq := 0, first := 0#32, replays := 0, rseq := r.heldSeq, mismatched := false }
    s.Issues (.commitB o) { reads := [] } act pc → w.partialGroup = false → s.commitWaits = false →
    ∃ t, exec (.commitB o) s = .next t ∧ t.warp.region = closed ∧ t = { s with warp := t.warp, cores := t.cores } ∧ t.warp.spill = w.spill ∧
      (r.flag = false → t.cores = s.cores ∧ w.Keeps t.warp act (fun _ => pc + 4#64) false) ∧
      (r.flag = true → w.Keeps t.warp act (fun _ => pc + BitVec.ofInt 64 (4 * o.toInt)) false ∧
        t.cores = (s.modCore (s.coreOf w.ref.wg) fun c => { c with rack := c.rack.filter fun e => !(e.warp == w.ref && decide (r.rseq ≤ e.seq)) }).cores)

/-- R392: the PTEST group reads poison without passing it on: whether a lane is poisoned, its cause, its Contact Sheet sequence, 0 in place of a
poisoned lane, and an INJECTED token in place of the clean ones. -/
def Obligations.PoisonTests : Prop :=
  ∀ (s : State) (act : Mask) (pc : DWord) (d a : Code),
    let w := s.warp
    let v := w.valueOf a
    let sh := everyOther [w.shapeOf a]
    let clean := maskOf fun l => act.has l && !(v l).psn
    let made := s.mkToken s.myTag .injected { s.here clean pc with aux := (v clean.lowest).bits }
    let one := fun i (g : Val → Word) => Gives s i (formU d a) act pc [⟨d, sh, fun l => Val.clean (g (v l))⟩] 0#6
    one (.ptest d a) (fun x => if x.psn then 1#32 else 0#32) ∧
    one (.pinfoCause d a) (fun x => if x.psn then BitVec.ofNat 32 (x.bits.toNat / 2 ^ 26) else 0#32) ∧
    one (.pfill d a) (fun x => if x.psn then 0#32 else x.bits) ∧
    (clean = 0#32 → Gives s (.pset d a) (formU d a) act pc [⟨d, sh, v⟩] 0#6) ∧
    (clean ≠ 0#32 →
      let rs := [ResWord.mk d sh fun l => if (v l).psn then v l else Val.poison made.2]
      s.Issues (.pset d a) (formU d a) act pc → Warp.takesAll act rs (w.markDead (formU d a)) →
      ∃ t, exec (.pset d a) s = .next t ∧ State.Result made.1 t act pc rs 0#6 ∧ made.2.toNat / 2 ^ 26 = Cause.injected.code) ∧
    (s.Issues (.pinfoEntry d a) (formU d a) act pc → w.acquiring = false → s.drained w.ref = true → (∀ c ∈ s.cores, ∀ e ∈ c.storeQ, e.upto = 0) →
      Warp.takesAll act [⟨d, sh, fun _ => Val.zero⟩] (w.markDead (formU d a)) →
      ∃ t, exec (.pinfoEntry d a) s = .next t ∧ t.warp.region = w.region ∧ (∀ l < 32, t.warp.pcOf l = if act.has l then pc + 4#64 else w.pcOf l) ∧
        (isCab d = true → ∀ l < 32, act.has l = true → ∃ old : Bool, t.warp.valueOf d l =
          Val.clean (if (v l).psn then BitVec.ofNat 32 (2 ^ 31 + (if old then 2 ^ 30 else 0) + (v l).bits.toNat % 2 ^ 26) else 0#32)))

/-- R58, R78, R198: a suppressed word writes one token with the cause of its row, or the token of its sector, to the lowest unpinned latch position in
the active lanes, sets the region-poison flag and counts the cause, and goes on at PC + 4; nothing of the cabinet, the drawer or FPSTAT changes. R299:
a switched issue, due once 1,023 issues have passed with the warp diverged, chooses, of the groups above the lowest, the lowest above the mark, or
with none above it the lowest of them all, moves the mark there and discards the hint state; no PC and no register changes. -/
def Obligations.SuppressedAndSwitched : Prop :=
  (∀ (s : State) (act : Mask) (pc : DWord) (k : Suppression),
     s.warp.group = some (act, pc) → s.warp.mayIssue = true →
     ∃ t tok, exec (.suppressedWord k) s = .next t ∧
       (match k with
         | .encoding => tok.toNat / 2 ^ 26 = Cause.illegalEncoding.code
         | .operand => tok.toNat / 2 ^ 26 = Cause.illegalOperand.code
         | .hint => tok.toNat / 2 ^ 26 = Cause.illegalOperand.code
         | .fetch c => tok.toNat / 2 ^ 26 = c.code
         | .sector x => tok = x) ∧
       t.warp.region.flag = true ∧ t.warp.region.causes.getLsbD (tok.toNat / 2 ^ 26) = true ∧
       (∀ j < 3, s.warp.hints.unpinned.head? = some j →
         (t.warp.latch.getD j Slot.fresh).valid = act ∧ ∀ l < 32, act.has l = true → laneOf (t.warp.latch.getD j Slot.fresh).lanes l = Val.poison tok) ∧
       (∀ l < 32, t.warp.pcOf l = if act.has l then pc + 4#64 else s.warp.pcOf l) ∧
       t.warp.cab = s.warp.cab ∧ t.warp.drawer = s.warp.drawer ∧ t.warp.fpstat = s.warp.fpstat) ∧
  (∀ (s : State),
     s.warp.mayIssue = true → s.warp.switched = none → s.warp.converged = false → 1023 ≤ s.warp.divCount →
     let pcs := s.warp.livePcs
     ∃ t p, exec .switchedIssue s = .next t ∧ p ∈ pcs ∧ (∃ q ∈ pcs, q.toNat < p.toNat) ∧
       ((∃ q ∈ pcs, s.warp.switchMark.toNat < q.toNat ∧ ∃ y ∈ pcs, y.toNat < q.toNat) →
         s.warp.switchMark.toNat < p.toNat ∧ ∀ q ∈ pcs, s.warp.switchMark.toNat < q.toNat → (∃ y ∈ pcs, y.toNat < q.toNat) → p.toNat ≤ q.toNat) ∧
       ((¬ ∃ q ∈ pcs, s.warp.switchMark.toNat < q.toNat ∧ ∃ y ∈ pcs, y.toNat < q.toNat) → ∀ q ∈ pcs, (∃ y ∈ pcs, y.toNat < q.toNat) → p.toNat ≤ q.toNat) ∧
       t.warp.switched = some (s.warp.groupAt p) ∧ t.warp.switchMark = p ∧ t.warp.pcs = s.warp.pcs ∧ t.warp.cab = s.warp.cab ∧
       t.warp.hints.mod = none ∧ t.warp.hints.scale = none ∧ t.warp.hints.xiValid = false ∧ t.warp.hints.lifePos = 8 ∧ t.warp.hints.yp = false ∧
       t = { s with warp := t.warp })

/-- R193, R195, R351: a walk of a context that ends in a leaf of SPACE 0 or SPACE 1 gives an aligned frame that the context's function owns or shares,
for the page asked; and a translation for a store gives a leaf that may be written. -/
def Obligations.WalksStayInFrames : Prop :=
  ∀ (s : State) (core : Option Nat) (die tag space : Nat) (off : DWord) (write : Bool) (t : TlbEntry),
    (s.walk die tag space off = .leaf t → space ≤ 1 →
      s.svc.mayUse (s.ctx tag).func (t.frame / 65536) = true ∧ t.frame % 65536 = 0 ∧ t.tag = tag ∧ t.space = space ∧ t.page = off.toNat / 65536) ∧
    ((s.lookup core die tag space off write).2 = .leaf t → write = true → t.wr = true)

/-- R198: a fetch for a group leaves the warp with what its word decodes to; a page that may not be executed or another fault of the walk, or a poison
sector, makes it a suppressed word; a missing page makes the warp wait for its service request (R398), after which FETCH_RETRY fetches again. R195: a
TRANSLATION_WALK that misses queues the request of its page. -/
def Obligations.FetchAndWalkEvents : Prop :=
  ∀ (s : State) (act : Mask) (pc : DWord),
    let w := s.warp
    let q := s.lookup (some (s.coreOf w.ref.wg)) s.myDie s.myTag 0 pc false
    let fetches := fun (i : Instr) =>
      let leaves := fun (d : Decoded) => ∃ t, exec i s = .next t ∧ t = { q.1 with warp := { w with fetchHold := none, ir := some d }, l2 := t.l2 }
      s.myWg.tag < s.ctxs.length → w.group = some (act, pc) → w.mayIssue = true →
      (∀ e, q.2 = .leaf e → e.ex = true → s.svc.errors = [] → (∀ pa, s.locate pa = none) → (s.ctx s.myTag).injArm = false →
        leaves (match (s.mem.view s.myDie).readVal (e.frame + pc.toNat % 65536) 4 with
          | { bits := x, psn := false } => decodeWord x
          | { bits := x, psn := true } => .suppressed (.sector x))) ∧
      (∀ e, q.2 = .leaf e → e.ex = false → leaves (.suppressed (.fetch .protection))) ∧
      (∀ c, q.2 = .fault c → c ≠ .pageMiss → leaves (.suppressed (.fetch c))) ∧
      (q.2 = .fault .pageMiss → (s.ctx s.myTag).eqEn = false →
        let n := match (s.ctx s.myTag).pending 0 (pc.toNat / 65536) with
          | some n => n
          | none => ((s.ctx s.myTag).srSeq + 1) % 2 ^ 32
        ∃ t, exec i s = .next t ∧ t.warp = { w with fetchHold := some n, ir := none } ∧
          ((s.ctx s.myTag).pending 0 (pc.toNat / 65536) = none → (t.ctx s.myTag).srSeq = n) ∧ t = { q.1 with warp := t.warp, ctxs := t.ctxs })
    (w.fetchHold = none → fetches .instructionFetch) ∧
    (∀ n, w.fetchHold = some n → 0 ≤ (BitVec.ofNat 32 (s.ctx s.myTag).srDone - BitVec.ofNat 32 n).toInt → fetches .fetchRetry) ∧
    ∀ tag space off wr, tag < s.ctxs.length → (s.ctx tag).state = 1 → (s.ctx tag).dying = none → space < 3 → (s.ctx tag).eqEn = false →
      let l := s.lookup none 4 tag space off wr
      let u := l.1
      ∃ t, exec (.translationWalk tag space off wr) s = .next t ∧
        t = if l.2 = .fault .pageMiss ∧ (u.ctx tag).pending space (off.toNat / 65536) = none then
          u.modCtx tag fun c => { c with srSeq := (c.srSeq + 1) % 2 ^ 32, misses := (space, off.toNat / 65536, (c.srSeq + 1) % 2 ^ 32) :: c.misses }
        else u

/-- R260 to R265: a write that enters the view of a die is seen there at once and by no other die; the die that applies it later changes only its own
view; and once every die has applied everything, every die sees the writes in coherence order. R222, R236, R260, R268: the entry of a core's store
queue that no earlier entry of its warp for the same sector keeps back leaves and enters the view of the core's die; where the host may cache its line
the host is asked first and the entry stays. R263: a die applies a write of the log whose predecessors it has applied. R53, R56: a result whose every
lane has come, none of them with a token for the other half of a CAS's VAL (R215), takes its latch position and its destinations, and is outstanding
no longer; a drawer destination stays invalid after a deschedule point. R206, R207, R231: the oldest SMAP on an entry registers the 4 KiB pages of its
range where each has a translation and none is mapped in the device, and completes its tag at once unless it prefills; where the range overlaps a
mapping of the workgroup the SMAP is refused with cause 3. A fill makes an absent line of a valid entry, whose page still translates, present with the
bytes of memory and the tag of its context (R207, R350). -/
def Obligations.MemoryEvents : Prop :=
  (∀ (d : DevMem) (e : Nat) (w : SectorWrite), d.shaped → e < 5 →
     ((d.enter e w).view e = ((d.catchUp e w.addr).view e).apply w ∧ ∀ k < 5, k ≠ e → (d.enter e w).view k = d.view k) ∧
     (∀ k, d.mayApply e k = true → ∀ j < 5, j ≠ e → (d.applyOne e k).view j = d.view j) ∧
     d.sync.view e = d.log.foldl (fun m l => m.apply l.write) d.base) ∧
  (∀ (s : State) (core k : Nat) (e : StoreEntry) (w : SectorWrite),
     let line := w.addr / 128
     ((s.coreAt core).storeQ[k]? = some e → (∀ f ∈ (s.coreAt core).storeQ.take k, f.warp = e.warp → f.act.place ≠ e.act.place) → e.act = .mem w → s.locate w.addr = none →
       (line ∉ s.svc.directory →
         ∃ t, exec (.storeDrain core k) s = .next t ∧
           t = { s with
             cores := (s.modCore core fun c => { c with storeQ := c.storeQ.eraseIdx k }).cores
             mem := { s.mem.enter (dieOf core) w with owners := (line, e.tag) :: s.mem.owners.filter fun o => o.1 != line } }) ∧
       (line ∈ s.svc.directory → (∀ b ∈ s.svc.backInv, b.2 ≠ line) →
         ∃ t, exec (.storeDrain core k) s = .next t ∧ t.cores = s.cores ∧ t.mem = s.mem ∧ t.svc.backInv = s.svc.backInv ++ [(s.nextId, line)] ∧
           t.fabric.out = s.fabric.out ++ [(s.nextId, .backInvalidate s.nextId line)])) ∧
     (∀ e < 5, s.mem.mayApply e k = true →
       ∃ t, exec (.writeApply e k) s = .next t ∧ t = { s with mem := s.mem.applyOne e k } ∧ (s.mem.shaped → ∀ j < 5, j ≠ e → t.mem.view j = s.mem.view j))) ∧
  (∀ (s : State) (p : PendRes),
     let w := s.warp
     let rs := (List.range p.dsts.length).map fun k => ResWord.mk (p.dsts.getD k 0#8) (p.shapes.getD k .u) (laneOf (p.words.getD k []))
     w.pend.find? (fun q => q.id == p.id) = some p → p.left = 0#32 → p.faults = [] → p.half = 0#32 → p.wideAcq = false → p.dsts.Nodup →
     p.words.length = p.dsts.length → p.shapes.length = p.dsts.length → (∀ ws ∈ p.words, ws.length = 32 ∧ ∀ l < 32, p.mask.has l = false → laneOf ws l = Val.zero) →
     Warp.takesAll p.mask rs { w with pend := w.pend.filter fun q => q.id != p.id } →
     ∃ t, exec (.resultArrival p.id) s = .next t ∧ t.warp.pend = w.pend.filter (fun q => q.id != p.id) ∧
       (∀ r ∈ rs, isCab r.dst = true → ∀ l < 32, t.warp.valueOf r.dst l = if p.mask.has l then r.val l else w.valueOf r.dst l) ∧
       (p.dropped = false → ∀ r ∈ rs, isDrawer r.dst = true →
         (∀ l < 32, t.warp.valueOf r.dst l = if p.mask.has l then r.val l else w.valueOf r.dst l) ∧ (t.warp.rawSource r.dst).2 = (w.rawSource r.dst).2 ||| p.mask) ∧
       (p.dropped = true → t.warp.drawer = w.drawer) ∧
       (∀ c, isCab c = true → c ∉ p.dsts → ∀ l < 32, t.warp.valueOf c l = w.valueOf c l) ∧
       (∀ k < w.latch.length, let x := w.latch.getD k Slot.fresh
         let y := t.warp.latch.getD k Slot.fresh
         if x.pend = some p.id then y.pend = none ∧ y.valid = p.mask ∧ ∀ r, rs.head? = some r → ∀ l < 32, p.mask.has l = true → laneOf y.lanes l = r.val l else y = x) ∧
       t.warp.pcs = w.pcs ∧ t.warp.fpstat = w.fpstat ∧ t.warp.region = w.region ∧ t.warp.hints = w.hints ∧ t = { s with warp := t.warp }) ∧
  (∀ (s : State) (j : SmapJob) (g : Wg) (e : SmapEntry),
     s.wgOf j.wg = some g → g.smap[j.entry]? = some e →
     let done := fun (psn : Bool) (causes : DWord) => { s with smaps := s.smaps.filter fun x => x.id != j.id }.tagDone j.wg j.tag psn causes
     (s.smaps.find? (fun x => x.id == j.id) = some j → g.saved = false → (∀ k ∈ s.smaps, k.wg = j.wg → k.entry = j.entry → j.id ≤ k.id) → j.registered = false →
       (e.valid = true → e.gbase = j.gbase → e.soff = j.soff → e.len = j.len → e.pre = j.pre →
         ∃ t, exec (.smapExecute j.id) s = .next t ∧ t = done false 0#64) ∧
       (e.valid = false → (∃ x ∈ g.smap, x.valid = true ∧ j.soff < x.soff + x.len ∧ x.soff < j.soff + j.len) →
         ∃ t, exec (.smapExecute j.id) s = .next t ∧ t = done true 8#64) ∧
       (e.valid = false → (∀ x ∈ g.smap, x.valid = true → x.soff + x.len ≤ j.soff ∨ j.soff + j.len ≤ x.soff) →
         let q := State.rangePages g.core (dieOf g.core) g.tag (j.len / 4096) j.gbase s []
         let pages := q.2.filterMap fun p => p.2.1
         s.svc.errors = [] → (s.ctx g.tag).injArm = false → (∀ p ∈ q.2, p.2.2 = none) → (∀ p ∈ pages, s.pageMapped p = false) →
         ∃ t, exec (.smapExecute j.id) s = .next t ∧
           (j.pre = true → ∃ h, t.wgOf j.wg = some h ∧ h.tags = g.tags ∧ (∃ x ∈ t.smaps, x = { j with registered := true }) ∧
             h.smap = updAt g.smap j.entry fun _ => { valid := true, gbase := j.gbase, soff := j.soff, len := j.len, pre := true, pages := pages, lines := [] }) ∧
           (j.pre = false → (∀ w ∈ s.allWarps, ∀ any m d, w.wait ≠ .twait any m d) → j.id ∉ t.smaps.map SmapJob.id ∧ ∃ h, t.wgOf j.wg = some h ∧ (g.hasTag j.tag = true → h.tagAt j.tag = { state := 2, psn := false, causes := 0#32 }) ∧
             h.smap = updAt g.smap j.entry fun _ => { valid := true, gbase := j.gbase, soff := j.soff, len := j.len, pre := false, pages := pages, lines := [] }))) ∧
     (∀ line, e.valid = true → line < e.len / 128 → (∀ x ∈ e.lines, x.1 ≠ line) → s.svc.errors = [] → (s.ctx g.tag).injArm = false → g.stash.wf = true →
       let pa := e.pages.getD (line / 32) 0 * 4096 + line % 32 * 128
       let q := s.lookup (some g.core) (dieOf g.core) g.tag 0 (BitVec.ofNat 64 (e.gbase + line / 32 * 4096)) false
       (∃ l, q.2 = .leaf l) →
       ∃ t h, exec (.stashLineFill j.wg j.entry line) s = .next t ∧ t.wgOf j.wg = some h ∧
         h.smap = updAt g.smap j.entry (fun m => { m with lines := (line, 0#4) :: m.lines, owners := (line, g.tag) :: m.owners.filter fun o => o.1 != line }) ∧
         h.stash = copyLine (t.mem.view (dieOf g.core)) pa g.stash (e.soff + line * 128) ∧ (∀ a, (∀ i < 128, a ≠ e.soff + line * 128 + i) → h.stash.byte a = g.stash.byte a) ∧
         t = { q.1 with wgs := t.wgs, mem := t.mem }))

/-- R240, R244, R247: a copy takes its record, from the record cache where its core holds it; a record that breaks the rules ends the copy with cause
8; a copy to another node counts its writes on the channel at once. R245, R248: a sector of a copy into the stash whose two chunks are in bounds and
contiguous in device memory takes the bytes, or the poison, of its source sector, with every store that has left a queue (R271), and no other byte of
the stash changes. R251, R272: at its end the copy, as a release at device scope, brings its tag to DONE with what it met. -/
def Obligations.CopyEvents : Prop :=
  (∀ (s : State) (c : Copy) (g : Wg) (u : State) (bs : List Byte),
     s.copies.find? (fun x => x.id == c.id) = some c → s.wgOf c.wg = some g → g.saved = false → c.finished = false → s.copyBehind c = false → c.record = none →
     s.takeRecord c = (u, .bytes bs) →
     let r := parseRec bs
     let c0 := (c.args.getD 1 0#32).toInt
     let chan := if r.rchan then r.dchan else c.chan
     let good := r.ok s.fabric.node c.dir c.xloadw c0 = true ∧ (c.dir = 2 ∨ c.dir = 3 → mcastSome (s.launchOf g.launch).pkt r.mcast = true)
     let becomes := fun (v : State) (x : Copy) => ∃ t, exec (.copyRecordFetch c.id) s = .next t ∧ t = { v with copies := v.copies.map fun y => if y.id = c.id then x else y }
     ((∃ e ∈ (s.coreAt g.core).recCache.head?, e = (g.tag, c.recAddr, bs)) → u = s) ∧
     (¬ good → becomes u { c with record := some bs, finished := true, psn := true, causes := c.causes ||| 256#64 }) ∧
     (good → c.dir ≠ 4 → (c.xloadw = true → r.rows * r.row ≤ 32768) → becomes u { c with record := some bs }) ∧
     (good → c.dir = 4 → c.xloadw = false → u.ownsSend g.tag r.dnode chan = false →
       becomes u { c with record := some bs, finished := true, psn := true, causes := c.causes ||| 4#64 }) ∧
     (good → c.dir = 4 → c.xloadw = false → u.ownsSend g.tag r.dnode chan = true →
       let old := ((u.fabric.send.find? fun x => x.node == r.dnode && x.chan == chan).map SendChan.count).getD 0#32
       let n := writeCount r [c0, (c.args.getD 2 0#32).toInt, (c.args.getD 3 0#32).toInt, r.coord3, r.coord4]
       becomes { u with fabric := { u.fabric with send := u.fabric.send.map fun x => if x.node = r.dnode ∧ x.chan = chan then { x with count := old + BitVec.ofNat 32 n } else x } }
         { c with record := some bs, chan := chan, idx0 := old + 1#32 })) ∧
  (∀ (s : State) (c : Copy) (g : Wg),
     s.copies.find? (fun x => x.id == c.id) = some c → s.wgOf c.wg = some g → g.saved = false →
     (∀ bs, c.record = some bs → c.finished = false → s.copyAwaits c = false → s.copyBehind c = false →
       s.cores.all (fun k => k.storeQ.all fun e => e.upto == 0) = true → c.dir = 0 → c.xloadw = false →
       s.svc.errors = [] → (∀ pa, s.locate pa = none) → (s.ctx g.tag).injArm = false → (∀ m ∈ g.smap, m.valid = false) →
       let r := parseRec bs
       let k := chunkOf r (c.coords r) true c.cursor
       let n := chunkOf r (c.coords r) true (c.cursor + 1)
       let a := (c.args.getD 0 0#32).toNat + k.row * r.pitch + k.at'
       r.expand = false → c.cursor + 1 < r.chunks → k.bits = 128 → n.bits = 128 → n.row = k.row → n.at' = k.at' + 16 → n.off = k.off + 16#64 → k.off.toNat % 32 = 0 →
       a % 32 = 0 → a + 32 ≤ (s.launchOf g.launch).krec.stashk * 65536 → g.stash.wf = true → (∀ f ∈ c.fetched, f.1 ≠ k.off) → (∀ f ∈ c.asked, f.2 ≠ k.off) →
       ∀ off e, resolvePlace s.fabric.node r.place k.off = .own 0 off → (s.lookup (some g.core) (dieOf g.core) g.tag 0 off false).2 = .leaf e →
       let pa := e.frame + off.toNat % 65536
       let now := s.mem.catchUp (dieOf g.core) pa
       let m := now.view (dieOf g.core)
       ∃ t x h, exec (.copySector c.id) s = .next t ∧ t.copies = (s.copies.map fun y => if y.id = c.id then x else y) ∧
         x.id = c.id ∧ x.cursor = c.cursor + 2 ∧ x.sectors = c.sectors + 1 ∧ (x.finished = true ↔ r.chunks ≤ c.cursor + 2) ∧ t.wgOf c.wg = some h ∧
         h.stash.token a = m.token pa ∧ (m.token pa = none → x.psn = c.psn ∧ x.causes = c.causes ∧ ∀ i < 32, h.stash.byte (a + i) = m.byte (pa + i)) ∧
         (∀ tok, m.token pa = some tok → x.psn = true ∧ x.causes = c.causes ||| (1#64 <<< (tok.toNat / 2 ^ 26))) ∧
         (∀ b, (∀ i < 32, b ≠ a + i) → h.stash.byte b = g.stash.byte b) ∧ t.mem = now ∧ t.warp = s.warp ∧ t.parked = s.parked) ∧
     (c.finished = true → g.hasTag c.tag = true → (∀ w ∈ s.allWarps, ∀ any m d, w.wait ≠ .twait any m d) → c.arr = none →
       ∃ t h, exec (.copyTagDone c.id) s = .next t ∧ t.copies = s.copies.filter (fun x => x.id != c.id) ∧ t.wgOf c.wg = some h ∧
         (∀ k, h.tagAt k = if k = c.tag then { state := 2, psn := c.psn, causes := c.causes.setWidth 32 } else g.tagAt k) ∧
         t.mem = (if c.dir = 4 then s.mem else s.mem.sync) ∧ t = { s with copies := t.copies, wgs := t.wgs, mem := t.mem }))

/-- R161, R170, R171: a step of the oldest ready MLOOP sequence gives each element of its slot the value of R171 from the row of A, the column of B
and the old element, which is 0 where the first step overwrites; with the generated ones of an integer format it adds the number of products. A
poisoned row, column, addend or element, in that order, gives the element its token. R161, R169, R173: an MLOOP whose steps are done leaves the queue;
with SETTAG its tag follows with the poison of its slot, and without it its flags are ORed into its warp's FPSTAT. A tag that follows reaches DONE,
and its flags are ORed. R158, R161, R175 to R180: in slot order MZERO makes every element of its slot 0; MPUT writes the rows that its lanes name, the
highest lane last; MSCALE multiplies; MGET delivers the two elements of its lane's row; and MOUT writes each row it converts into the stash, brings
its tag after it and leaves every other byte of the stash. -/
def Obligations.MatrixEvents : Prop :=
  (∀ (s : State) (e : MatEntry) (g : Wg),
     s.matEntry e.id = some e → s.mloopReady e = true → (∀ x ∈ s.queueOf e, x.id < e.id → s.mloopReady x = false) →
     (s.cores.getD g.core Core.fresh).queue.find? (fun x => x.id == e.id) = some e → s.wgOf e.wg = some g → e.slot < g.acc.length → s.svc.wordErrors = [] →
     let c0 := e.ctl.getD 0 0#32
     let keff := if ctlB24 c0 then 2 * fmtK e.fmt else fmtK e.fmt
     let u := s.engineReads e.warp e.id
     let a := u.aSides e keff
     let b := a.1.bSides a.2.1 keff
     let old := fun i j => if e.acm = true ∨ e.done ≠ 0 then elemOf (b.1.slotRows e) i j else Val.zero
     let add := fun i j => match e.perturb with
       | some (ix, v) => if e.done = 0 ∧ ix = i * 64 + j then some v else none
       | none => none
     let sa := fun i => a.2.2.getD i default
     let sb := fun j => b.2.getD j default
     ∃ t x, exec (.mloopStep e.id) s = .next t ∧ x ∈ t.queueOf e ∧ x.id = e.id ∧ x.done = e.done + 1 ∧ x.begun = true ∧
       (∀ i < 64, ∀ j < 64, let y := elemOf (t.slotRows e) i j
         (∀ tok, (sa i).tok = some tok → y = Val.poison tok) ∧
         ((sa i).tok = none → ∀ tok, (sb j).tok = some tok → y = Val.poison tok) ∧
         ((sa i).tok = none → (sb j).tok = none → ∀ v, add i j = some v → v.psn = true → y = v) ∧
         ((sa i).tok = none → (sb j).tok = none → (∀ v, add i j = some v → v.psn = false) →
           ((old i j).psn = true → y = old i j) ∧
           ((old i j).psn = false → y = Val.clean (
             if e.fmt = 5 ∨ e.fmt = 7 then intElem (fmtBits e.fmt) (old i j).bits ((add i j).map Val.bits) (sa i).vals (sb j).vals
             else BitVec.ofNat 32 (floatElem e.fmt e.rm e.sat (if ctlSc c0 then some (e.aScale.getD i 0, e.bScale.getD j 0) else none) (old i j).bits
               ((add i j).map Val.bits) (sa i).vals (sb j).vals).1)))) ∧
       (e.fmt = 5 ∨ e.fmt = 7 → e.aop = 0xFA → ctlBgen c0 = 2 → e.perturb = none → ∀ i < 64, ∀ j < 64, (old i j).psn = false →
         elemOf (t.slotRows e) i j = Val.clean ((old i j).bits + BitVec.ofNat 32 keff)) ∧
       t.warp = s.warp ∧ t.parked = s.parked ∧ (e.aop = 0xF8 ∨ e.aop = 0xFA → ctlBgen c0 = 1 ∨ ctlBgen c0 = 2 → t.mem = u.mem)) ∧
  (∀ (s : State) (e : MatEntry) (d : TagDone) (g : Wg),
     (s.matEntry e.id = some e → e.kind = .mloop → e.token = none → s.slotTurn e = true → 0 < ctlCount (e.ctl.getD 0 0#32) → ctlCount (e.ctl.getD 0 0#32) ≤ e.done →
       let bad := (List.range 4096).any fun n => (elemOf (s.slotRows e) (n / 64) (n % 64)).psn
       (s.slotRows e).length = 64 → (∀ r ∈ s.slotRows e, r.length = 64) →
       ∃ t, exec (.mloopComplete e.id) s = .next t ∧ e.id ∉ (t.queueOf e).map MatEntry.id ∧ t.wgs = s.wgs ∧ t.mem = s.mem ∧
         (ctlSettag (e.ctl.getD 0 0#32) = true → ∃ x, t.tagDones = s.tagDones ++ [x] ∧ x.wg = e.wg ∧ x.tag = ctlTag (e.ctl.getD 0 0#32) ∧ x.psn = bad ∧ x.flags = e.flags ∧
           x.warp = e.warp ∧ t.warp = s.warp ∧ t.parked = s.parked) ∧
         (ctlSettag (e.ctl.getD 0 0#32) = false → t.tagDones = s.tagDones ∧
           (s.warp.ref = e.warp → t.warp = { s.warp with fpstat := orFlags s.warp.fpstat (BitVec.ofNat 6 e.flags) }))) ∧
     (s.tagDones.find? (fun x => x.id == d.id) = some d → s.wgOf d.wg = some g → g.saved = false → g.hasTag d.tag = true → s.warp.ref = d.warp →
       (∀ w ∈ s.allWarps, ∀ any m c, w.wait ≠ .twait any m c) →
       ∃ t h, exec (.matrixTagDone d.id) s = .next t ∧ t.tagDones = s.tagDones.filter (fun x => x.id != d.id) ∧ t.wgOf d.wg = some h ∧
         (∀ k, h.tagAt k = if k = d.tag then { state := 2, psn := d.psn, causes := d.causes.setWidth 32 } else g.tagAt k) ∧
         t.warp = { s.warp with fpstat := orFlags s.warp.fpstat (BitVec.ofNat 6 d.flags) } ∧ t.parked = s.parked ∧ t.mem = s.mem)) ∧
  (∀ (s : State) (e : MatEntry) (g : Wg),
     s.matEntry e.id = some e → s.slotTurn e = true → s.wgOf e.wg = some g → e.slot < g.acc.length → s.svc.wordErrors = [] → s.warp.ref = e.warp →
     let el := elemOf (s.slotRows e)
     let row := fun l => laneOf e.rows l
     let gone := fun (t : State) => e.id ∉ (t.queueOf e).map MatEntry.id
     (e.kind = .mzero → ∃ t, exec (.slotAccess e.id) s = .next t ∧ gone t ∧ (∀ i < 64, ∀ j < 64, elemOf (t.slotRows e) i j = Val.zero) ∧
       t.warp = s.warp ∧ t.mem = s.mem ∧ t = { s with wgs := t.wgs, cores := t.cores }) ∧
     (e.kind = .mput → (∀ l < 32, e.act.has l = true → (row l).psn = false) →
       ∃ t, exec (.slotAccess e.id) s = .next t ∧ gone t ∧ t = { s with wgs := t.wgs, cores := t.cores } ∧ ∀ i < 64, ∀ j < 64, elemOf (t.slotRows e) i j =
         if e.act.has (j / 2) = true ∧ (row (j / 2)).bits.toNat % 64 = i then e.vals.getD j Val.zero else el i j) ∧
     (e.kind = .mscale →
       ∃ t, exec (.slotAccess e.id) s = .next t ∧ gone t ∧ t = { s with warp := { s.warp with fpstat := t.warp.fpstat }, wgs := t.wgs, cores := t.cores } ∧
         ∀ i < 64, ∀ j < 64, elemOf (t.slotRows e) i j = orToken [e.vals.getD i Val.zero, el i j]
           (BitVec.ofNat 32 (fMul fp32 { rm := e.rm, sat := e.sat, ftz := false } (el i j).bits.toNat (e.vals.getD i Val.zero).bits.toNat).1)) ∧
     (e.kind = .mget → ∀ p, s.warp.pend.find? (fun q => q.id == e.res) = some p → p.id = e.res → p.mask = e.act → p.half = 0#32 →
       let val := fun k l => if (row l).psn then row l else el ((row l).bits.toNat % 64) (2 * l + k)
       let rs := (List.range 2).map fun k => ResWord.mk (p.dsts.getD k 0#8) (p.shapes.getD k .u) (val k)
       p.dsts.length = 2 → p.dsts.Nodup → p.shapes.length = 2 → Warp.takesAll p.mask rs { s.warp with pend := s.warp.pend.filter fun q => q.id != p.id } →
       ∃ t, exec (.slotAccess e.id) s = .next t ∧ gone t ∧ t.wgs = s.wgs ∧ t.mem = s.mem ∧ (∀ q ∈ t.warp.pend, q.id ≠ e.res) ∧
         ∀ r ∈ rs, isCab r.dst = true → ∀ l < 32, t.warp.valueOf r.dst l = if e.act.has l then r.val l else s.warp.valueOf r.dst l) ∧
     (e.kind = .mout → (∀ m ∈ g.smap, m.valid = false) → g.stash.wf = true → e.a0 % 32 = 0 → outPitch e % 32 = 0 → outRow e.fmt ≤ outPitch e →
       (∀ k < outRows e, e.a0 + k * outPitch e + outRow e.fmt ≤ (s.launchOf g.launch).krec.stashk * 65536) →
       ∃ t h x, exec (.moutExecute e.id) s = .next t ∧ gone t ∧ t.wgOf e.wg = some h ∧ t.tagDones = s.tagDones ++ [x] ∧ x.wg = e.wg ∧ x.warp = e.warp ∧
         x.tag = bitsAt (e.ctl.getD 0 0#32).toNat 16 6 ∧
         (e.fmt = 8 → ∀ k < outRows e, ∀ j < 64, (∀ i < 64, (el (outFirst e + k) i).psn = false) →
           h.stash.word (e.a0 + k * outPitch e + 4 * j) = el (outFirst e + k) j) ∧
         (∀ a, (∀ k < outRows e, ∀ b < outRow e.fmt, a ≠ e.a0 + k * outPitch e + b) → h.stash.byte a = g.stash.byte a) ∧
         h.acc = g.acc ∧ t.warp = s.warp ∧ t.mem = s.mem))

/-- R278 to R288: counted writes and release flags. A flag leaves once no counted write it covers is behind it. A counted write that arrives on an
owned channel is counted and its sectors written in their order; one whose translation fails is counted all the same, and its cause is recorded and
told. A flag whose count is not reached is held, and one that is reached is written, as poison where a cause is recorded; a held flag whose time has
passed is written as LOST_WRITES, the count takes its value, and the sender is told. R287: what reaches the flag lane while the Easel is full or the
lane holds something waits in order. R289, R326: a loss notice goes into the event queue of the context that owns the send channel, or nowhere where
that queue is off (log 43). R277: a packet of the write or the request lane that left more than 800 ns ago is lost, and a flag never is. R268: a back-
invalidation that is answered, and a write that is observed, wait no longer. -/
def Obligations.FabricArrivals : Prop :=
  (∀ (s : State) (c : RecvChan) (p : FlagPacket) (q : WritePacket) (h : HeldFlag) (j : FlagSend),
     let adds := fun (t : State) (ws : List SectorWrite) => t.mem.log.map LogEntry.write = s.mem.log.map LogEntry.write ++ ws
     let channel := fun (f : RecvChan → RecvChan) => s.fabric.recv.map fun x => if x.node = c.node ∧ x.chan = c.chan then f x else x
     let place := fun off => (s.lookup none 4 c.tag 0 off true).2
     (s.fabric.sends.find? (fun k => k.id == j.id) = some j → (∀ k ∈ s.fabric.sends, k.warp = j.warp → j.id ≤ k.id) → (∀ c ∈ s.copies, c.dir ≠ 4) →
       ((∀ c ∈ s.cores, ∀ e ∈ c.storeQ, ∀ w, e.act = .remote j.node w → w.chan = j.pkt.chan → (j.pkt.count - w.index).toInt < 0) →
         ∃ t, exec (.stcFlagSend j.id) s = .next t ∧ t.fabric.sends = s.fabric.sends.filter (fun k => k.id != j.id) ∧
           t.fabric.out = s.fabric.out ++ [(s.nextId, .flag j.node j.pkt)] ∧ t = { s with fabric := t.fabric, mem := (s.dropPeers j.node j.pkt.off).mem, nextId := s.nextId + 1 }) ∧
       ((∃ c ∈ s.cores, ∃ e ∈ c.storeQ, ∃ w, e.act = .remote j.node w ∧ w.chan = j.pkt.chan ∧ 0 ≤ (j.pkt.count - w.index).toInt) → exec (.stcFlagSend j.id) s = .next s)) ∧
     (s.recvOf q.src q.chan = none → exec (.countedWriteArrival q) s = .next s) ∧
     (s.recvOf p.src p.chan = none → s.fabric.link = [] → s.fabric.easel.length < 2048 →
       ∃ t, exec (.flagArrival p) s = .next t ∧ t.fabric.out.getLast?.map Prod.snd = some (.loss p.src { kind := 4, cause := 0, node := s.fabric.node, chan := p.chan, count := p.count, arrival := s.arrivals p.src p.chan, off := p.off }) ∧
         t.mem = s.mem) ∧
     ((s.ctx c.tag).state = 1 → (s.ctx c.tag).dying = none → s.svc.errors = [] → (s.ctx c.tag).injArm = false → (s.ctx c.tag).csEn = false → s.fabric.link = [] → s.fabric.easel.length < 2048 → (∀ pa, s.locate pa = none) → s.svc.directory = [] →
       (s.recvOf q.src q.chan = some c → q.atom = none → (∀ x ∈ s.fabric.easel, x.pkt.src = q.src → x.pkt.chan = q.chan → (c.count + 1 - x.pkt.count).toInt < 0) →
         (∀ t, place q.off = .leaf t →
           ∃ u, exec (.countedWriteArrival q) s = .next u ∧ u.fabric.recv = channel (fun x => { x with count := x.count + 1 }) ∧ u.fabric.easel = s.fabric.easel ∧
             adds u (q.sectors.map fun w => { w with addr := t.frame + w.addr % 65536 }) ∧ u = { s with fabric := u.fabric, mem := u.mem }) ∧
         (∀ k, place q.off = .fault k → k ≠ .pageMiss →
           ∃ u, exec (.countedWriteArrival q) s = .next u ∧ u.fabric.recv = channel (fun x => { x with count := x.count + 1, cause := if x.cause = none then some (k, 0#32) else x.cause }) ∧
             u.fabric.out = s.fabric.out ++ [(s.nextId, .loss q.src { kind := 3, cause := k.code, node := s.fabric.node, chan := q.chan, count := q.index, arrival := c.count, off := q.off })] ∧
             u.mem = s.mem)) ∧
       (s.recvOf p.src p.chan = some c →
         ((c.count - p.count).toInt < 0 →
           ∃ u x, exec (.flagArrival p) s = .next u ∧ u.fabric.easel = s.fabric.easel ++ [x] ∧ x.pkt = p ∧ x.entered = s.ctr 4 ∧ x.matched = none ∧ x.expired = false ∧ u.mem = s.mem ∧ u.warp = s.warp) ∧
         (0 ≤ (c.count - p.count).toInt → (∀ x ∈ s.fabric.easel, x.id ≠ s.nextId) → ∀ t, place p.off = .leaf t →
           let pa := t.frame + p.off.toNat % 65536
           ∃ u, exec (.flagArrival p) s = .next u ∧ u.fabric.easel = s.fabric.easel ∧
             (c.cause = none → adds u [sectorBytes pa (natLE 8 p.value.toNat)] ∧ u.fabric.recv = s.fabric.recv) ∧
             (∀ k aux, c.cause = some (k, aux) → ∃ tok : Word, tok.toNat / 2 ^ 26 = k.code ∧ adds u [sectorPoison pa tok] ∧ u.fabric.recv = channel (fun x => { x with cause := none })))) ∧
       (s.recvOf h.pkt.src h.pkt.chan = some c → ∀ t, place h.pkt.off = .leaf t →
         let pa := t.frame + h.pkt.off.toNat % 65536
         let freed := s.fabric.easel.filter fun x => x.id != h.id
         (∀ n, s.fabric.waiting.find? (fun x => x.id == h.id) = some h → h.matched = some n → h.expired = false → c.cause = none → 0 ≤ (BitVec.ofNat 32 (s.ctx c.tag).srDone - BitVec.ofNat 32 n).toInt →
           ∃ u, exec (.flagWriteRetry h.id) s = .next u ∧ u.fabric.easel = freed ∧ u.fabric.waiting = s.fabric.waiting.filter (fun x => x.id != h.id) ∧ adds u [sectorBytes pa (natLE 8 h.pkt.value.toNat)] ∧ u.fabric.recv = s.fabric.recv) ∧
         (s.fabric.easel.find? (fun x => x.id == h.id) = some h → c.cause = none → h.entered + c.hold * 1900 ≤ s.ctr 4 →
           (∀ x ∈ s.fabric.easel, x.pkt.src = h.pkt.src → x.pkt.chan = h.pkt.chan → x.id ≠ h.id → (h.pkt.count - x.pkt.count).toInt < 0) →
           ∃ u tok, exec (.flagHoldExpiry h.id) s = .next u ∧ tok.toNat / 2 ^ 26 = Cause.lostWrites.code ∧ adds u [sectorPoison pa tok] ∧ u.fabric.easel = freed ∧
             u.fabric.recv = channel (fun x => { x with cause := none, count := h.pkt.count }) ∧
             u.fabric.out = s.fabric.out ++ [(s.nextId, .loss h.pkt.src { kind := 1, cause := Cause.lostWrites.code, node := s.fabric.node, chan := h.pkt.chan, count := h.pkt.count, arrival := c.count, off := h.pkt.off })])))) ∧
  (∀ (s : State) (n : LossNotice) (p : FlagPacket) (c : SendChan) (job : Nat),
     (2048 ≤ s.fabric.easel.length ∨ s.fabric.link ≠ [] →
       exec (.flagArrival p) s = .next { s with fabric := { s.fabric with link := s.fabric.link ++ [.flagArrival p] } } ∧
       exec (.lossNoticeArrival n) s = .next { s with fabric := { s.fabric with link := s.fabric.link ++ [.lossNoticeArrival n] } }) ∧
     (s.fabric.easel.length < 2048 → s.fabric.link = [] → s.fabric.send.find? (fun x => x.node == n.node && x.chan == n.chan) = some c → c.tag < s.ctxs.length →
       let x := s.ctx c.tag
       let off := x.eqBase + BitVec.ofNat 64 (x.eqWrite.toNat % 2 ^ x.eqLog2n * 32)
       (x.eqEn = false → exec (.lossNoticeArrival n) s = .next s) ∧
       (x.eqEn = true → (x.eqWrite - x.eqRead).toNat = 2 ^ x.eqLog2n → ∃ t, exec (.lossNoticeArrival n) s = .next t ∧ (t.ctx c.tag).eqLost = min (x.eqLost + 1) 65535 ∧
         (t.ctx c.tag).eqWrite = x.eqWrite ∧ t.mem = s.mem) ∧
       (x.eqEn = true → (x.eqWrite - x.eqRead).toNat ≠ 2 ^ x.eqLog2n → ∀ e, (s.lookup none 4 c.tag 0 off true).2 = .leaf e →
         let pa := e.frame + off.toNat % 65536
         pa % 32 = 0 → s.locate pa = none → s.mem.shaped → s.memWf = true →
         ∃ t, exec (.lossNoticeArrival n) s = .next t ∧ (t.ctx c.tag).eqWrite = x.eqWrite + 1 ∧ (t.ctx c.tag).eqLost = x.eqLost ∧ t.warp = s.warp ∧
           ∀ die < 5, (t.mem.view die).token pa = none ∧ (t.mem.view die).bytes pa 32 =
             [BitVec.ofNat 8 n.kind, BitVec.ofNat 8 n.cause] ++ natLE 2 n.node ++ [BitVec.ofNat 8 n.chan, 0#8, 0#8, 0#8] ++ natLE 4 n.count.toNat ++ natLE 4 n.arrival.toNat ++ natLE 8 n.off.toNat ++
               List.replicate 8 0#8)) ∧
     (∃ t, exec (.packetAgeExpiry job) s = .next t ∧ t = { s with fabric := { s.fabric with out := t.fabric.out, routes := t.fabric.routes } } ∧
       ∀ m, m ∈ t.fabric.out ↔ m ∈ s.fabric.out ∧ ¬ (m.1 = job ∧ ((∃ k w, m.2 = .write k w) ∨ (∃ k r, m.2 = .request k r) ∨ ∃ k i r, m.2 = .reply k i r) ∧
         ∃ r ∈ s.fabric.routes, r.id = job ∧ r.sent + 1520 < s.ctr 4)) ∧
     (∀ line, s.svc.backInv.find? (fun b => b.1 == job) = some (job, line) →
       exec (.backInvalidateResponse job) s = .next { s with svc := { s.svc with
         backInv := s.svc.backInv.filter fun b => b.1 != job
         directory := s.svc.directory.filter fun l => l != line } }) ∧
     exec (.globalObservationResponse job none) s = .next { s with svc := { s.svc with observing := s.svc.observing.filter fun o => o.1 != job } })

/-- R266, R293, R416, R368: a load of another node on an owned channel is answered with what its home die's view holds, with the cause of its
translation, or with CONTEXT_KILLED; one on a channel that nobody owns is not answered. An answer, or 20 µs without one, ends the wait of its lanes;
one that nothing waits for, or that comes later than that, changes nothing. -/
def Obligations.RemoteAccesses : Prop :=
  ∀ (s : State) (r : RemoteRequest) (c : RecvChan) (q : Request) (res : Nat) (vs : List Val) (k : Cause),
    let replies := fun (a : Reply) => ∃ t, exec (.remoteAccessArrival r) s = .next t ∧ t = { s with
      l2 := t.l2, nextId := s.nextId + 1, fabric := { s.fabric with out := s.fabric.out ++ [(s.nextId, .reply r.src r.reqId a)], routes := t.fabric.routes } }
    let tr := (s.lookup none 4 c.tag 0 r.off false).2
    (s.recvOf r.src r.chan = none → exec (.remoteAccessArrival r) s = .next s) ∧
    (s.recvOf r.src r.chan = some c → (s.ctx c.tag).state ≠ 1 ∨ (s.ctx c.tag).dying.isSome = true → replies (.fault .contextKilled)) ∧
    (s.recvOf r.src r.chan = some c → (s.ctx c.tag).state = 1 → (s.ctx c.tag).dying = none → r.atom = none → s.svc.errors = [] → (s.ctx c.tag).injArm = false →
      (∀ k, tr = .fault k → k ≠ .pageMiss → replies (.fault k)) ∧
      (∀ t, tr = .leaf t → 4 ≤ r.size → (∀ pa, s.locate pa = none) →
        let pa := t.frame + r.off.toNat % 65536
        ∃ peer, (t.nopeer = true → peer = none) ∧ replies (.data ((List.range (r.size / 4)).map fun i => (s.mem.view (homeDie pa)).word (pa + 4 * i)) peer))) ∧
    (s.requestOf q.id = none → exec (.remoteResponseArrival q.id (.data vs none)) s = .next s ∧ exec (.hostResponseArrival q.id (.data vs)) s = .next s) ∧
    (s.requestOf q.id = some q → q.res = some res → q.copy = none → q.queue = none → q.atom = none → q.sub = none → s.warp.ref = q.warp → s.myLaunch.paired = false → (s.ctx q.tag).state = 1 → (s.ctx q.tag).dying = none →
      let left := s.fabric.requests.filter fun x => x.id != q.id
      let filled := fun (p : PendRes) => { p with
        left := p.left &&& ~~~ (maskOfLanes q.lanes)
        words := (List.range p.words.length).map fun i => mergeLanes (maskOfLanes q.lanes) (splat (if i < (q.size + 3) / 4 then vs.getD i Val.zero else Val.zero)) (p.words.getD i []) }
      let data := fun (i : Instr) => ∃ t, exec i s = .next t ∧ t.fabric.requests = left ∧ t.warp.pend = (s.warp.pend.map fun p => if p.id = res then filled p else p) ∧
        t = { s with warp := { s.warp with pend := t.warp.pend }, fabric := t.fabric }
      let fails := fun (i : Instr) (k : Cause) => ∃ t, exec i s = .next t ∧ t.fabric.requests = left ∧ t = { s with warp := { s.warp with pend := t.warp.pend }, fabric := t.fabric } ∧
        t.warp.pend.length = s.warp.pend.length ∧ ∀ (n : Nat) (p : PendRes), s.warp.pend[n]? = some p → ∃ x, t.warp.pend[n]? = some x ∧ x.id = p.id ∧ (p.id ≠ res → x = p) ∧
          (p.id = res → x.left = p.left &&& ~~~ (maskOfLanes q.lanes) ∧ (∀ f ∈ p.faults, f ∈ x.faults) ∧ ∀ l ∈ q.lanes, ∃ f ∈ x.faults, f.lane = l ∧ f.cause = k ∧ f.off = q.raw)
      (q.node < 10000 →
        (q.issued + 38000 ≤ s.ctr q.die → fails (.remoteResponseTimeout q.id) .waitTimeout ∧ exec (.remoteResponseArrival q.id (.data vs none)) s = .next s) ∧
        (s.ctr q.die < q.issued + 38000 → data (.remoteResponseArrival q.id (.data vs none)) ∧ fails (.remoteResponseArrival q.id (.fault k)) k ∧ exec (.remoteResponseTimeout q.id) s = .next s)) ∧
      (10000 ≤ q.node → ((∀ v ∈ vs, v.psn = false) → data (.hostResponseArrival q.id (.data vs))) ∧ fails (.hostResponseArrival q.id .failed) .protection ∧
        ((∃ v ∈ vs, v.psn = true) → fails (.hostResponseArrival q.id (.data vs)) .linePoison)))

/-- R295: a test of a waiting WAITV on device memory ends the wait of each lane whose word meets the condition and leaves the others; while one waits
and time is left the warp waits on. Once T × 1,024 cycles have passed with no test in progress the lanes that still wait receive one WAIT_TIMEOUT
token, and the warp goes on. -/
def Obligations.WaitTests : Prop :=
  ∀ (s : State) (p : PendRes) (vl vh : Code),
    let w := s.warp
    let v := w.waitv
    let q := State.ways 4 4 false (fun l => (w.places.getD v.pl 0#16, .inr (v.offs.getD l 0#64))) (lanesOf (w.waitMask &&& ~~~ v.fin)) s []
    let read := fun l => match q.2.find? fun a => a.lane == l with
      | some { way := .mem _ (pl :: _), .. } => (s.mem.view s.myDie).readVal pl.1 pl.2
      | _ => Val.zero
    let meets := fun l => (read l).psn = true ∨ waitCond v.cond (read l).bits (laneOf v.vals l).bits = true
    w.status = .running → w.wait = .waitv → w.pend.getLast? = some p → p.dsts = [vl, vh] → vl ≠ vh → p.mask = w.waitMask → p.half = 0#32 → p.dropped = false → v.tests = [] → v.vals.length = 32 →
    w.waitMask &&& ~~~ v.fin ≠ 0#32 →
    (v.late = false → 0 < v.timeout → s.ctr s.myDie < v.start + v.timeout * 1024 → s.Plain → s.myLaunch.paired = false → v.acq = false → (∀ a ∈ q.2, ∃ sp x xs, a.way = .mem sp (x :: xs)) →
      ((∃ l < 32, w.waitMask.has l = true ∧ v.fin.has l = false ∧ ¬ meets l) →
        ∃ t, exec (.waitvTest w.ref) s = .next t ∧ t.warp.wait = .waitv ∧ t.mem = s.mem ∧ t.warp.pend = w.pend ∧ t.warp.cab = w.cab ∧
          ∀ l < 32, w.waitMask.has l = true → (t.warp.waitv.fin.has l = true ↔ v.fin.has l = true ∨ meets l)) ∧
      ((∀ l < 32, w.waitMask.has l = true → v.fin.has l = false → meets l) →
        let val := fun l => if v.fin.has l then laneOf v.vals l else read l
        let rs := [ResWord.mk vl .g val, ResWord.mk vh .g fun l => if (val l).psn then val l else Val.zero]
        Warp.takesAll p.mask rs { w with wait := .none, waitv := WaitV.fresh, pend := w.pend.filter fun x => x.id != p.id } →
        ∃ t, exec (.waitvTest w.ref) s = .next t ∧ t.warp.wait = .none ∧ t.mem = s.mem ∧
          ∀ r ∈ rs, isCab r.dst = true → ∀ l < 32, t.warp.valueOf r.dst l = if p.mask.has l then r.val l else w.valueOf r.dst l)) ∧
    (v.late = false → v.first = false → v.start + v.timeout * 1024 ≤ s.ctr s.myDie → (s.ctx s.myTag).csEn = false → v.toks = [] →
      ∃ t tok, exec (.waitvTimeout w.ref) s = .next t ∧ tok.toNat / 2 ^ 26 = Cause.waitTimeout.code ∧ t.warp.wait = .none ∧
        let val := fun l => if v.fin.has l then laneOf v.vals l else Val.poison tok
        let rs := [ResWord.mk vl .g val, ResWord.mk vh .g fun l => if (val l).psn then val l else Val.zero]
        Warp.takesAll p.mask rs { w with wait := .none, waitv := WaitV.fresh, pend := w.pend.filter fun x => x.id != p.id } →
        ∀ r ∈ rs, isCab r.dst = true → ∀ l < 32, t.warp.valueOf r.dst l = if p.mask.has l then r.val l else w.valueOf r.dst l)

/-- R319, R323, R341, R417, R36, R37, R324: the launch engine reads the packet at RIDX of an enabled queue that is not empty, once. It passes one at
or above the drain mark or one that breaks a check, waits for the service of a missing page and then reads again, and keeps one that stands: with its
kernel record where its grid is known, without where a size class is still to be selected, which is the entry of the smallest size that holds, the
lowest of equals. R27, R29, R34, R328: an eligible head that comes next becomes a launch, its met dependences being an acquire (R325), and its queue
goes on; a cooperative launch is placed whole or waits (log 51). The next cluster coordinate of another launch is placed on one hardware cluster,
which the context may use, each workgroup on one of its enabled cores, its warps at the entry with the empty lanes exited (R22, R25). -/
def Obligations.LaunchAdmission : Prop :=
  (∀ (s : State) (q : Nat), q < s.queues.length →
     let x := s.queue q
     let passed := fun (i : Instr) => ∃ t, exec i s = .next t ∧ (t.queue q).ridx = x.ridx + 1 ∧ (t.queue q).head = none ∧ (t.queue q).raw = none ∧ (t.queue q).hold = none ∧
       t.launches = s.launches
     let keeps := fun (i : Instr) (p : Packet) (k : Option Krec) => ∃ t h, exec i s = .next t ∧ (t.queue q).head = some h ∧ (t.queue q).ridx = x.ridx ∧ h.pkt = p ∧ h.krec = k ∧
       h.chosen = k.isSome ∧ h.met.length = p.waits.length ∧ t.launches = s.launches
     let good := fun (u v : State) (p : Packet) (kaddr : Nat) (kb : List Byte) =>
       u.queueRead q (BitVec.ofNat 64 kaddr) 256 = (v, .bytes kb) ∧ krecOk kb (parseKrec kb) p = true ∧ v.neverFits x.ctx (u.ctx x.ctx).csPair (parseKrec kb) p = false
     let reads := fun (i : Instr) (v : State) =>
       (x.place.toNat / 8 = 0x1FFF ∨ x.place.toNat / 8 = s.fabric.node) → x.place.toNat % 8 = 0 →
       let got := v.queueRead q (x.base + BitVec.ofNat 64 (x.ridx.toNat % 2 ^ x.log2n * 128)) 128
       (got.2 = .wait → ∃ t n page, exec i s = .next t ∧ (t.queue q).hold = some (n, page) ∧ (t.queue q).ridx = x.ridx ∧ (t.queue q).head = none ∧ t.launches = s.launches) ∧
       (∀ c off tok, got.2 = .fail c off tok → passed i) ∧
       (∀ bs, got.2 = .bytes bs →
         let p := parsePacket bs
         let u := got.1.modQueue q fun y => { y with raw := some bs }
         (x.drain = true → (∀ m, x.mark = some m → 0 ≤ (x.ridx - m).toInt) → x.mark.isSome = true → passed i) ∧
         (x.drain = false → packetOk bs p = false → passed i) ∧
         (x.drain = false → packetOk bs p = true → p.hintn = 0 →
           (p.schedn ≠ 0 → p.phase = true → keeps i p none) ∧
           (p.schedn = 0 → ∀ v kb, good (u.setHead q { u.blankHead q p [] with chosen := true }) v p p.krec kb → keeps i p (some (parseKrec kb)))))
     (s.mayTake x = false → exec (.launchPacketTake q) s = .next s) ∧
     (x.en = true → x.head = none → x.raw = none → x.hold = none → x.asked = none → x.ridx ≠ x.widx → s.svc.cpOk = true → s.svc.health ≠ 3 → reads (.launchPacketTake q) s) ∧
     (∀ n page, x.en = true → x.hold = some (n, page) → 0 ≤ (BitVec.ofNat 32 (s.ctx x.ctx).srDone - BitVec.ofNat 32 n).toInt → x.head = none → x.raw = none →
       reads (.launchReadRetry q) (s.modQueue q fun y => { y with hold := none, retried := some page })) ∧
     (∀ h, x.head = some h → x.en = true → h.chosen = false → (∀ b ∈ h.met, b = true) → x.hold = none →
       let p := h.pkt
       (h.size = none → ∀ u1 zs, (s.modMem DevMem.sync).queueRead q (BitVec.ofNat 64 p.sizeAddr) 4 = (u1, .bytes zs) → (s.sizeWord q h).2 = .bytes zs) ∧
       (∀ n, h.size = some n → s.sizeWord q h = (s, .bytes (natLE 4 n.toNat))) ∧
       ∀ u1 u2 zs bs, s.sizeWord q h = (u1, .bytes zs) → u1.queueRead q (BitVec.ofNat 64 p.schedTab) (32 * p.schedn) = (u2, .bytes bs) →
       (∀ k < p.schedn, schedClean bs k = true) →
       ((∀ k < p.schedn, schedMax bs k < leNat zs) → passed (.sizeClassSelect q)) ∧
       (∀ k < p.schedn, leNat zs ≤ schedMax bs k → (∀ j < p.schedn, leNat zs ≤ schedMax bs j → schedMax bs k < schedMax bs j ∨ (schedMax bs k = schedMax bs j ∧ k ≤ j)) →
         let g := (numAt bs (32 * k + 4) 4, numAt bs (32 * k + 8) 2, numAt bs (32 * k + 10) 2)
         let h' := { h with chosen := true, schedIx := k, sizeWord := BitVec.ofNat 32 (leNat zs), gdim := g, kaddr := numAt bs (32 * k + 16) 8, size := some (BitVec.ofNat 32 (leNat zs)) }
         let y : Select := { tab := p.schedTab, ix := k, word := BitVec.ofNat 32 (leNat zs), gdim := g, kaddr := numAt bs (32 * k + 16) 8 }
         ∀ v kb, good ((u2.modQueue q fun z => { z with selects := y :: z.selects.filter fun o => o.tab != y.tab }).setHead q h') v { p with gdim := g } h'.kaddr kb →
         ∃ t o, exec (.sizeClassSelect q) s = .next t ∧ (t.queue q).head = some o ∧ o.schedIx = k ∧ o.sizeWord = BitVec.ofNat 32 (leNat zs) ∧ o.pkt = { p with gdim := g } ∧
           o.krec = some (parseKrec kb) ∧ o.chosen = true ∧ y ∈ (t.queue q).selects ∧ t.launches = s.launches))) ∧
  (∀ (s : State) (q : Nat) (r : Rounds) (h : Head) (k : Krec) (l : Launch) (hc : Nat) (u : State),
     ((s.queue q).head = some h → h.krec = some k → h.pkt.coop = true → ({ s with launches := s.launches ++ [s.launchFrom q h k] } : State).placeWhole (s.launchFrom q h k) = none →
       exec (.launchAdmit q) s = .next s) ∧
     (s.nextAdmit = some (q, r) → (s.queue q).head = some h → h.krec = some k → q < s.queues.length →
       s.eligible q = true ∧
       (h.pkt.coop = false →
         ∃ t x, exec (.launchAdmit q) s = .next t ∧ t.launches = s.launches ++ [x] ∧ x.id = s.nextId ∧ x.queue = q ∧ x.tag = (s.queue q).ctx ∧ x.pkt = h.pkt ∧ x.krec = k ∧ x.placed = 0 ∧
           x.paired = (s.ctx (s.queue q).ctx).csPair ∧ (t.queue q).ridx = (s.queue q).ridx + 1 ∧ (t.queue q).head = none ∧ t.rounds = r ∧ t.wgs = s.wgs ∧ t.warp = s.warp ∧
           t.mem = (if h.pkt.waits.isEmpty then s.mem else { s.mem.sync with peers := [] })) ∧
       (h.pkt.coop = true → (∀ g ∈ s.wgs, g.launch ≠ s.nextId) →
         let z := { s with nextId := s.nextId + 2, launches := s.launches ++ [s.launchFrom q h k], rounds := r }.modQueue q Queue.pass
         let x := (if h.pkt.waits.isEmpty then z else z.modMem fun d => { d.sync with peers := [] }).placeWhole (s.launchFrom q h k)
         (x.isSome = true → ∃ t y, exec (.launchAdmit q) s = .next t ∧ y ∈ t.launches ∧ y.id = s.nextId ∧ y.placed = clusterTotal h.pkt ∧ (t.queue q).ridx = (s.queue q).ridx + 1 ∧
           (t.wgs.filter fun g => g.launch == s.nextId).length = clusterTotal h.pkt * perCluster h.pkt * (if (s.ctx (s.queue q).ctx).csPair then 2 else 1)))) ∧
     (s.launches.find? (fun x => x.id == l.id) = some l → l.pkt.coop = false → l.placed < clusterTotal l.pkt → hc < 64 → s.placeCluster l l.placed hc = some u → l.paired = false →
       s.mayPlace l.tag hc = true ∧
       ∃ t gs ws, exec (.clusterPlace l.id (hc / 16) (hc % 16)) s = .next t ∧ t.wgs = s.wgs ++ gs ∧ t.parked = s.parked ++ ws ∧ t.warp = s.warp ∧ t.mem = s.mem ∧
         (∃ x ∈ t.launches, x.id = l.id ∧ x.placed = l.placed + 1 ∧ x.units.length = l.units.length + 1) ∧ gs.length = perCluster l.pkt ∧
         (∀ (k : Nat) (g : Wg), gs[k]? = some g → g.launch = l.id ∧ g.cl = clusterCoord l.pkt l.placed ∧ rankOf l.pkt g = k ∧ g.core / 4 = hc ∧ (s.coreAt g.core).enabled = true ∧ g.stash = Memory.empty ∧
           g.saved = false ∧ g.ended = false ∧ g.tags = List.replicate l.krec.tags TagSt.idle ∧ g.acc = List.replicate l.krec.accSlots zeroSlot) ∧
         ∀ w ∈ ws, (∃ g ∈ gs, g.id = w.ref.wg) ∧ w.cab = List.replicate 240 Reg.fresh ∧ (∀ j < 32, w.pcOf j = BitVec.ofNat 64 l.krec.entry) ∧ w.n = l.krec.n ∧ w.gmax = l.krec.gmax ∧
           (if w.ref.warp < spatialWarps l.pkt then w.status = .running ∧ w.isTask = false ∧ ∀ j < 32, (w.exited.has j = true ↔ threadCount l.pkt ≤ 32 * w.ref.warp + j)
             else w.status = .idle ∧ w.isTask = true)))

/-- R24, R31, R209: a workgroup whose warps have ended, with no engine work left, ends: its mappings are withdrawn and what it held is released. R327:
a launch whose workgroups have all ended, its stores performed, counts its event counter, records its completion and leaves. R333, R40: the record at
the head of a core's queue starts on the lowest idle task slot, in the state of R25 at its ENTRY with FRAME and its own address in v0 to v3, every die
having applied what came before (R335). A core whose queue is empty takes the head of the ring. R336: once the stores of an ended task have been
performed, the count at its parent falls by one and the slot is idle. -/
def Obligations.LaunchAndTaskEvents : Prop :=
  (∀ (s : State) (g : Wg) (l : Launch),
     (s.wgOf g.id = some g → s.mayEnd g = true →
       (∀ w ∈ s.warpsOf g.id, if w.isTask then w.status = .idle else w.status = .ended) ∧
       ∃ t x, exec (.workgroupEnd g.id) s = .next t ∧ t.wgOf g.id = some x ∧ x.ended = true ∧ x.acc = [] ∧ x.wslot = [] ∧ x.tags = [] ∧ x.bars = [] ∧ x.stash = Memory.empty ∧
         (∀ m ∈ x.smap, m.valid = false) ∧ (∀ w ∈ t.parked, w.ref.wg ≠ g.id) ∧ (s.warp.ref.wg ≠ g.id → t.warp = s.warp) ∧ ((∀ pa, s.locate pa = none) → ∀ h ∈ s.wgs, h.id ≠ g.id → h ∈ t.wgs)) ∧
     (s.launches.find? (fun x => x.id == l.id) = some l → s.complete l = true → l.tag < s.ctxs.length → l.pkt.doneCtr % 64 < (s.ctx l.tag).ectr.length →
       l.placed = clusterTotal l.pkt ∧ (∀ h ∈ s.wgs, h.launch = l.id → h.ended = true) ∧
       ∃ t, exec (.launchComplete l.id) s = .next t ∧ t.launches.map Launch.id = (s.launches.filter fun x => x.id != l.id).map Launch.id ∧ (∀ h ∈ t.wgs, h.launch ≠ l.id) ∧
         (t.ctx l.tag).ectr = (if l.pkt.doneCtr / 128 = 1 then updAt (s.ctx l.tag).ectr (l.pkt.doneCtr % 64) (· + BitVec.ofNat 32 l.pkt.doneAdd) else (s.ctx l.tag).ectr) ∧
         ((s.ctx l.tag).eqEn = false → t.mem = s.mem.sync) ∧
         ((s.ctx l.tag).eqEn = true → ((s.ctx l.tag).eqWrite - (s.ctx l.tag).eqRead).toNat ≠ 2 ^ (s.ctx l.tag).eqLog2n →
           (∃ e, (({ s with mem := s.mem.sync } : State).lookup none 4 l.tag 0 ((s.ctx l.tag).eqBase + BitVec.ofNat 64 ((s.ctx l.tag).eqWrite.toNat % 2 ^ (s.ctx l.tag).eqLog2n * 32)) true).2 = .leaf e) →
           (t.ctx l.tag).eqWrite = (s.ctx l.tag).eqWrite + 1))) ∧
  (∀ (s : State) (x : Warp) (g : Wg) (l : Launch) (r : TaskRec) (rest : List TaskRec) (more : List Warp),
     (s.getWarp x.ref = some x → s.wgOf x.ref.wg = some g → s.queuedOn g.core g.launch = r :: rest → s.idleSlots g.core g.launch = x :: more → x.isTask = true → 4 ≤ x.n →
       s.launches.find? (fun y => y.id == g.launch) = some l →
       ∃ t y, exec (.taskStart x.ref) s = .next t ∧ t.getWarp x.ref = some y ∧ y.status = .running ∧ y.isTask = true ∧ y.task = some r ∧ y.exited = 0#32 ∧ (∀ j < 32, y.pcOf j = BitVec.ofNat 64 r.entry) ∧
         (∀ j < 32, y.valueOf 0#8 j = Val.clean (BitVec.ofNat 32 r.frame) ∧ y.valueOf 1#8 j = Val.clean (BitVec.ofNat 32 (r.frame / 2 ^ 32)) ∧
           y.valueOf 2#8 j = Val.clean (BitVec.ofNat 32 r.addr) ∧ y.valueOf 3#8 j = Val.clean (BitVec.ofNat 32 (r.addr / 2 ^ 32))) ∧
         t.queuedOn g.core g.launch = rest ∧ (t.launchOf g.launch).outstanding = l.outstanding - 1 ∧ t.mem = s.mem.sync) ∧
     (s.launches.find? (fun y => y.id == l.id) = some l → ∀ core < s.cores.length, s.mayRefill l core = true → ∀ u bs,
       s.launchBytes l.tag (Origin.device 4) (BitVec.ofNat 64 (l.pkt.tring + 32 * (l.ringHead % l.pkt.tringn))) 32 = (u, .bytes bs) →
       s.queuedOn core l.id = [] ∧ ∃ t, exec (.taskRingRefill l.id core) s = .next t ∧ t.queuedOn core l.id = [parseTask (l.ring.headD 0) bs] ∧
         (t.launchOf l.id).ringHead = l.ringHead + 1 ∧ (t.launchOf l.id).ring = l.ring.drop 1 ∧ (t.launchOf l.id).outstanding = l.outstanding) ∧
     (s.getWarp x.ref = some x → s.wgOf x.ref.wg = some g → x.status = .joining → x.held = none → x.late = [] → s.drained x.ref = true → x.task = some r → r.parent % 32 = 0 → r.parent < 2 ^ 64 →
       s.svc.errors = [] → (∀ pa, s.locate pa = none) → (s.ctx g.tag).injArm = false → s.mem.shaped → s.memWf = true → g.core < 256 → ∀ e,
       (({ s with mem := s.mem.sync } : State).lookup (some g.core) (dieOf g.core) g.tag 0 (BitVec.ofNat 64 r.parent) true).2 = .leaf e →
       let pa := e.frame + r.parent % 65536
       let m := s.mem.sync.view (dieOf g.core)
       let n := m.nat (pa + 16) 4
       pa % 32 = 0 → m.token pa = none → 1 < n →
       let joins := fun (i : Instr) => ∃ t y, exec i s = .next t ∧ t.getWarp x.ref = some y ∧ y.status = .idle ∧ y.task = none ∧
         (t.mem.view (dieOf g.core)).nat (pa + 16) 4 = n - 1 ∧ ∀ b, b < pa + 16 ∨ pa + 20 ≤ b → (t.mem.view (dieOf g.core)).byte b = m.byte b
       (x.joinAt = none → joins (.taskAutojoin x.ref)) ∧
       (∀ since, x.joinAt = some since → since + 1024 ≤ s.ctr (dieOf g.core) → joins (.taskAutojoinRetry x.ref))))

/-- R329, R337, R338, R55, R57: a decision drains a unit whose drain estimate is known and within its bound, else saves it where its save is, else
flushes it where it may restart, else saves it late; a bound of 0 is none. The host and the firmware may ask for units of their own function, and
Harog chooses the one that R329 names. A drain that runs past its bound becomes a save. A warp of a unit that is being saved is taken at a deschedule
point, and at no other and not while it waits in a COMMIT.P. R184, R338, R339, R356: a unit whose warps have been taken is saved where the save pool
has room for it (its place: log 29), its workgroups leaving their cores with their records; where there is none it is flushed if it may restart and
else runs on, its warps untaken. A flushed unit's workgroups are as at their start, but that a task whose AUTOJOIN was refused for lack of room keeps
its slot until it is accepted (R336). R73, R210: a unit that is away resumes on a hardware cluster that holds it, every die having applied what was
written before. -/
def Obligations.Preemption : Prop :=
  (∀ (s : State) (l : Launch) (u : ClusterUnit) (x : Warp) (f : Option Nat),
     let own := (s.ctx l.tag).func
     let asked := f = some own ∨ (f = none ∧ s.victimNow u.id = true)
     let b := l.pkt.pbound * 1900
     let gs := s.liveUnit l u
     let becomes := fun (i : Instr) (ok : ClusterUnit → Prop) => ∃ t y v, exec i s = .next t ∧ t.unitAt u.id = some (y, v) ∧ y.id = l.id ∧ v.id = u.id ∧ v.cluster = u.cluster ∧ ok v ∧
       t.mem = s.mem ∧ t.wgs = s.wgs
     (s.unitAt u.id = some (l, u) →
       (¬ asked → exec (.preemptDecision { cluster := u.id, asker := f }) s = .next s) ∧
       (asked → u.state = .running → (∀ w ∈ s.unitWarps l u, w.commitWait = none) →
         let drains := ∃ d, s.drainEstimate gs = some d ∧ (l.pkt.pbound = 0 ∨ d ≤ b)
         let saves := l.pkt.pbound = 0 ∨ ∃ d, s.saveTime l gs = some d ∧ d ≤ b
         becomes (.preemptDecision { cluster := u.id, asker := f }) fun v => v.decided = s.ctr 4 ∧ v.overrun = false ∧
           (drains → v.state = .draining ∧ v.late = false ∧ s.drainEstimate gs = some v.estimate) ∧ (¬ drains → saves → v.state = .saving ∧ v.late = false) ∧
           (¬ drains → ¬ saves → l.krec.restart = true → v.state = .flushing) ∧ (¬ drains → ¬ saves → l.krec.restart = false → v.state = .saving ∧ v.late = true)) ∧
       ((∃ w ∈ s.unitWarps l u, w.commitWait.isSome = true) → exec (.preemptDecision { cluster := u.id, asker := f }) s = .next s) ∧
       (u.state = .draining → l.pkt.pbound ≠ 0 → u.decided + b ≤ s.ctr 4 → becomes (.drainBoundExpiry u.id) fun v => v.state = .saving ∧ v.overrun = true) ∧
       (u.state = .draining → s.ctr 4 < u.decided + b → exec (.drainBoundExpiry u.id) s = .next s)) ∧
     (s.getWarp x.ref = some x →
       (x.status = .running → x.commitWait.isSome = true → exec (.warpSave x.ref) s = .next s) ∧
       (x.status = .running → x.wait = .none → x.atPoint = false → exec (.warpSave x.ref) s = .next s) ∧
       (s.unitOfWarp x.ref = some u → u.state = .saving → x.status = .running → x.wait = .none → x.atPoint = true → x.bare = true → x.pend = [] → x.held = none → x.late = [] →
         (s.launchOf ((s.wgOf x.ref.wg).getD default).launch).paired = false →
         ∃ t, exec (.warpSave x.ref) s = .next t ∧ t.getWarp x.ref = some { x with status := .taken } ∧ t = { s with warp := t.warp, parked := t.parked }))) ∧
  (∀ (s : State) (l : Launch) (u : ClusterUnit) (hc : Nat) (r : State),
     s.unitAt u.id = some (l, u) →
     let gs := s.liveUnit l u
     let n := (s.areaSizes gs).sum
     let room := s.poolPages l.tag { Origin.device 4 with launchId := l.pkt.launchId } (s.ctx l.tag).spBase
     let unit := fun (i : Instr) (ok : State → ClusterUnit → Prop) => ∃ t y v, exec i s = .next t ∧ t.unitAt u.id = some (y, v) ∧ y.id = l.id ∧ ok t v
     (s.maySave l u = true →
       (∀ a, s.poolPlace l.tag n = some a → (room a n).2 = true → unit (.unitSave u.id) fun t v => v.state = .saved ∧ v.area = (a, n) ∧
         ∀ g ∈ gs, (∃ h, t.wgOf g.id = some h ∧ h.saved = true) ∧ (∀ e ∈ (t.coreAt g.core).queue, e.wg ≠ g.id) ∧ ∀ e ∈ (t.coreAt g.core).rack, e.warp.wg ≠ g.id) ∧
       (s.poolPlace l.tag n = none → l.krec.restart = true → unit (.unitSave u.id) fun t v => v.state = .flushing ∧ t.wgs = s.wgs ∧ t.mem = s.mem) ∧
       (s.poolPlace l.tag n = none → l.krec.restart = false → (s.ctx l.tag).eqEn = false → unit (.unitSave u.id) fun t v => v.state = .running ∧ t.wgs = s.wgs ∧ t.mem = s.mem ∧
         ∀ g ∈ gs, ∀ w ∈ t.warpsOf g.id, w.status ≠ .taken)) ∧
     (u.state = .flushing → (∀ g ∈ gs, s.flushReady g = true) → (s.ctx l.tag).eqEn = false → (∀ g ∈ gs, s.queuedOn g.core l.id = [] ∧ s.wgOf g.id = some g) → unit (.unitFlush u.id) fun t v => v.state = .flushed ∧
       (∃ y ∈ t.launches, y.id = l.id ∧ y.restarts = l.restarts + gs.length) ∧
       ∀ g ∈ gs, (∃ h, t.wgOf g.id = some h ∧ h.saved = true ∧ h.stash = Memory.empty ∧ h.tags = List.replicate l.krec.tags TagSt.idle ∧ h.cl = clusterCoord l.pkt (linearCluster l.pkt g.cl)) ∧
         ∀ w ∈ t.warpsOf g.id, w.status = .taken ∧ ((∃ x ∈ s.warpsOf g.id, x.status = .joining ∧ w = { x with status := .taken }) ∨
           w.cab = List.replicate 240 Reg.fresh ∧ ∀ j < 32, w.pcOf j = BitVec.ofNat 64 l.krec.entry)) ∧
     (u.state = .saved ∨ u.state = .flushed → hc < 64 → (s.modMem DevMem.sync).bringUnit l u hc = some r → r.unitAt u.id = some (l, u) →
       (∀ g gs, groupsOf l (s.liveUnit l u) = g :: gs → s.mayPlace l.tag hc = true) ∧
       unit (.unitResume u.id (hc / 16) (hc % 16)) fun t v => v.state = .running ∧ t.wgs = r.wgs ∧ t.warp = r.warp ∧ t.parked = r.parked ∧ t.cores = r.cores ∧ t.mem = r.mem))

/-- R367, R368: the kill of a live context leaves it no launch, no workgroup, no queue that serves it, no entry of a Rack, a record cache or a TLB of
its own, and no held flag (log 34), and the state of every other context is unchanged. It is killed with its cause once no request with its tag is
outstanding and the host has observed its writes, at once where none is (log 47). A context that is not live is not killed. R394 to R396, R401: where
no line of its die has still to be encoded anew, a scrub that finds no error changes nothing, and one in a core's arrays it does not find; it takes
away and counts an error that the code of its line corrects and one of a clean copy, and makes a sector whose error is in device memory a poison
sector with a LINE_POISON token that its home die sees. R270: where its conditions hold a page moves home: the frame that its leaf entry named is
copied, byte for byte, into another frame of the same function, and the entry names that frame; no other byte of device memory changes. The conditions
are the model's (log 36). -/
def Obligations.KillAndScrub : Prop :=
  (∀ (s : State) (tag cause : Nat),
     ((s.ctx tag).state ≠ 1 → (s.ctx tag).dying = none → exec (.contextKill tag cause) s = .next s) ∧
     ((s.ctx tag).state = 1 → (s.ctx tag).dying = none → tag < s.ctxs.length → (∀ g ∈ s.wgs, g.tag = tag → ∃ l ∈ s.launches, l.id = g.launch ∧ l.tag = tag) →
       ∃ t, exec (.contextKill tag cause) s = .next t ∧ (∀ l ∈ t.launches, l.tag ≠ tag) ∧ (∀ g ∈ t.wgs, g.tag ≠ tag) ∧
         (∀ q, (t.queue q).en = true → (t.queue q).ctx ≠ tag) ∧ (∀ c ∈ t.cores, (∀ e ∈ c.rack, e.tag ≠ tag) ∧ (∀ e ∈ c.recCache, e.1 ≠ tag) ∧ ∀ e ∈ c.tlb, e.tag ≠ tag) ∧
         (∀ h ∈ t.fabric.easel, ∀ c, t.recvOf h.pkt.src h.pkt.chan = some c → c.tag ≠ tag) ∧ (∀ k, k ≠ tag → (t.ctx k).state = (s.ctx k).state ∧ (t.ctx k).roots = (s.ctx k).roots) ∧
         ((∃ r ∈ s.fabric.requests, r.tag = tag) → (t.ctx tag).state = 1 ∧ (t.ctx tag).dying.isSome = true) ∧
         ((∀ r ∈ s.fabric.requests, r.tag ≠ tag) → s.queuedHost tag = false → (∀ o ∈ s.svc.observing, ∀ g ∈ s.wgs, g.tag = tag → g.id ≠ o.2.wg) → (cause = 5 → s.svc.errors = []) →
           (t.ctx tag).state = 2 ∧ (t.ctx tag).cause = cause ∧ (t.ctx tag).dying = none)) ∧
     ∀ d, (s.ctx tag).dying = some d → tag < s.ctxs.length → d.lines = [] →
       ((∀ r ∈ s.fabric.requests, r.tag ≠ tag) → (∀ o ∈ s.svc.observing, o.1 ∉ d.seen) →
         ∃ t, exec (.contextKill tag cause) s = .next t ∧ (t.ctx tag).state = 2 ∧ (t.ctx tag).cause = d.cause ∧ (t.ctx tag).dying = none) ∧
       ((∃ r ∈ s.fabric.requests, r.tag = tag) ∨ (∃ o ∈ s.svc.observing, o.1 ∈ d.seen) → exec (.contextKill tag cause) s = .next s)) ∧
  (∀ (s : State) (e : LatentError) (n : Nat),
     let die := homeDie (e.sector * 32)
     let left := s.svc.errors.filter fun x => x.sector != e.sector
     let kind := (s.strongly e).kind
     ((∀ x ∈ s.svc.errors, x.sector / 4 ≠ n / 4) → s.stale (homeDie (n * 32)) = [] → exec (.squeegeeScrub n) s = .next s) ∧
     (s.svc.errors.find? (fun x => x.sector == e.sector) = some e → s.svc.dies.length = 4 → s.stale die = [] →
       (e.inCore = true → exec (.squeegeeScrub e.sector) s = .next s) ∧
       (e.inCore = false → kind = .corrected → ∃ t, exec (.squeegeeScrub e.sector) s = .next t ∧ t.svc.errors = left ∧
         (t.svc.dies.getD die DieHealth.fresh).corrected = (s.svc.dies.getD die DieHealth.fresh).corrected + 1 ∧ t = { s with svc := t.svc }) ∧
       (e.inCore = false → kind = .cleanCopy → s.locate (e.sector * 32) = none → ∃ t, exec (.squeegeeScrub e.sector) s = .next t ∧ t.svc.errors = left ∧
         (t.svc.dies.getD die DieHealth.fresh).uncorrectable = (s.svc.dies.getD die DieHealth.fresh).uncorrectable + 1 ∧
         t = { s with svc := t.svc, l2 := s.l2.filter fun l => l.line != e.sector / 4 }) ∧
       (e.inCore = false → kind = .dram → s.mem.shaped → s.memWf = true → (s.ctx 0).csEn = false → (∀ k, (s.ctx k).eqEn = false) →
         ∃ t tok, exec (.squeegeeScrub e.sector) s = .next t ∧ t.svc.errors = left ∧ tok.toNat / 2 ^ 26 = Cause.linePoison.code ∧ (t.mem.view die).token (e.sector * 32) = some tok ∧
           e.sector * 32 / 65536 ∈ t.svc.lpFrames ∧ (∀ b, (t.mem.view die).byte b = ((s.mem.catchUp die (e.sector * 32)).view die).byte b)))) ∧
  (∀ (s : State) (tag : Nat) (off : DWord) (frame a root : Nat) (e : TlbEntry),
     let m := s.mem.sync.base
     (∀ c ∈ s.cores, c.storeQ = []) → (∀ g ∈ s.wgs, ∀ m ∈ g.smap, m.valid = false) → s.mem.sync.log = [] →
     ({ s with mem := s.mem.sync } : State).walk 4 tag 0 off = .leaf e → (s.ctx tag).roots.getD 0 none = some root → leafEntry m off.toNat 5 root = some a →
     (s.mayMove tag (e.frame / 65536) frame = false → exec (.pageHomeMove tag off frame) s = .next s) ∧
     (s.mayMove tag (e.frame / 65536) frame = true → (∀ b, b / 65536 = e.frame / 65536 → m.token b = none) → a % 8 = 0 → s.memWf = true →
       ∃ t, exec (.pageHomeMove tag off frame) s = .next t ∧
         t.mem.base.nat a 8 = m.nat a 8 / 2 ^ 52 * 2 ^ 52 + frame * 65536 + m.nat a 8 % 65536 ∧
         (∀ b, b < a ∨ a + 8 ≤ b → t.mem.base.byte b = if b / 65536 = frame then m.byte (e.frame / 65536 * 65536 + b % 65536) else m.byte b) ∧
         t.wgs = s.wgs ∧ t.ctxs = s.ctxs ∧ t.warp = s.warp))

/-- R11, R12, R401, R403: a resource that fails and that the device has makes it DEGRADED, or OUT with no hardware cluster left. A core or a hardware
cluster is disabled, a link or a channel is noted, and the contexts with a running unit on it stop being live (on a link: on either of its dies; log
35), and are killed at once where nothing of theirs is outstanding (R367). A failed plane wears the device, and of the packets only those on it may be
lost (R277); throttling changes nothing else; and the thermal trip kills every live context so (log 40) and takes the device OUT. Health never gets
better. R18, R362, R365, R401, R403: after a cold reset the device has power and neither context but the firmware's, nor launch, nor workgroup; no
frame is assigned, no queue is enabled and memory reads zero (log 33); what has failed stays failed (log 37). Each flash boots its staged image where
there is one, the command processor's only where the Safelight's passes its check. The loss of power ends all of it and the module then does nothing.
A port whose link goes down loses the semaphore, its request in progress goes on (R362), and it is in the mode in which its link comes up (log 63).
R402: the start of an update of the census makes CGEN odd, and its end makes it even again and the shadow copy the device as it stands; a read through
the management port is answered with bytes of the shadow copy, while the Safelight runs (R18). -/
def Obligations.FailuresAndReset : Prop :=
  (∀ (s : State) (r : Resource) (plane : Nat),
     let lost : Nat → Bool := fun c => match r with
       | .core d k => c == d * 64 + k
       | .cluster d k => c / 4 == d * 16 + k
       | _ => false
     let hit : Nat → Bool := fun c => match r with
       | .link a b => dieOf c == a || dieOf c == b
       | _ => lost c
     let quiet := s.fabric.requests = [] ∧ s.svc.observing = [] ∧ ∀ k, s.queuedHost k = false
     (r.real = false → exec (.resourceFailure r) s = .next s) ∧
     (r.real = true → s.cores.length = 256 → ∃ t, exec (.resourceFailure r) s = .next t ∧
       ((∃ hc < 64, hc ∉ t.svc.failedClusters ∧ ∃ c < 256, c / 4 = hc ∧ (t.coreAt c).enabled = true) → t.svc.health = max s.svc.health 2) ∧
       ((¬ ∃ hc < 64, hc ∉ t.svc.failedClusters ∧ ∃ c < 256, c / 4 = hc ∧ (t.coreAt c).enabled = true) → t.svc.health = max s.svc.health 3) ∧ (s.svc.health ≤ 3 → t.svc.replace = true ∨ t.svc.health = 3) ∧
       (∀ c < 256, (t.coreAt c).enabled = ((s.coreAt c).enabled && !lost c)) ∧
       (∀ a b, r = .link a b → (a, b) ∈ t.svc.failedLinks) ∧ (∀ d k, r = .channel d k → (d, k) ∈ t.svc.failedChans) ∧ (∀ d k, r = .cluster d k → d * 16 + k ∈ t.svc.failedClusters) ∧
       ((∀ g ∈ s.wgs, ∀ l ∈ s.launches, l.id = g.launch → l.tag = g.tag) → ∀ tag < 64, s.ctxs.length = 64 →
         let runs := ∃ g ∈ s.wgs, g.tag = tag ∧ g.saved = false ∧ g.ended = false ∧ hit g.core = true
         ((t.ctx tag).live = true ↔ (s.ctx tag).live = true ∧ ¬ runs) ∧
         (quiet → (s.ctx tag).live = true ∧ runs → (t.ctx tag).state = 2) ∧ (¬ ((s.ctx tag).live = true ∧ runs) → (t.ctx tag).state = (s.ctx tag).state))) ∧
     (plane < 18 → ∃ t, exec (.planeFailure plane) s = .next t ∧ t.svc.planes = s.svc.planes ||| (1#18 <<< plane) ∧ max 1 s.svc.health = t.svc.health ∧
       t = { s with svc := t.svc, fabric := { s.fabric with out := t.fabric.out, routes := t.fabric.routes } } ∧ (∀ m ∈ t.fabric.out, m ∈ s.fabric.out) ∧
       ∀ m ∈ s.fabric.out, (∀ x ∈ s.fabric.routes, x.id = m.1 → x.plane ≠ plane) → m ∈ t.fabric.out) ∧
     exec .thermalThrottle s = .next { s with svc := { s.svc with throttled := true } } ∧
     (s.ctxs.length = 64 → s.svc.health ≤ 3 →
       ∃ t, exec .thermalTrip s = .next t ∧ t.svc.health = 3 ∧ ∀ tag < 64, (t.ctx tag).live = false ∧
         (quiet → (t.ctx tag).state = if (s.ctx tag).live = true then 2 else (s.ctx tag).state))) ∧
  (∀ (s : State) (port : Nat) (cxl : Bool),
     let sl := s.svc.slImage.boot
     let cp := s.svc.cpImage.boot
     let clean := fun (t : State) => t.wgs = [] ∧ t.launches = [] ∧ t.queues = List.replicate 256 Queue.fresh ∧ (t.ctx 0).state = 1 ∧ (∀ k, 1 ≤ k → t.ctx k = Ctx.fresh) ∧ t.svc.frames = [] ∧ t.svc.holder = 0 ∧
       t.svc.mailbox = [] ∧ t.mem = DevMem.fresh ∧ t.fabric.send = [] ∧ t.fabric.recv = [] ∧ t.svc.planes = s.svc.planes ∧ t.svc.failedClusters = s.svc.failedClusters ∧ t.svc.failedLinks = s.svc.failedLinks ∧
       t.svc.slImage = sl.1 ∧ t.svc.safelight = sl.2 ∧ t.svc.cpImage = (if sl.2 then cp.1 else s.svc.cpImage) ∧ t.svc.cpOk = (sl.2 && cp.2) ∧ (t.svc.cpOk = false → 3 ≤ t.svc.health) ∧
       (∀ c < 256, (t.coreAt c).enabled = (s.coreAt c).enabled ∧ (t.coreAt c).queue = [] ∧ (t.coreAt c).storeQ = []) ∧ t.ctrs = [0, 0, 0, 0, 0]
     (∃ t, exec .coldReset s = .next t ∧ clean t ∧ t.svc.powered = true) ∧
     (∃ t, exec .powerLoss s = .next t ∧ clean t ∧ t.svc.powered = false ∧ (t.inputs = [] → step t = .fault .unpowered)) ∧
     ∃ t, exec (.portLinkDown { port := port, cxl := cxl }) s = .next t ∧ t.svc.holder = (if s.svc.holder = port + 1 then 0 else s.svc.holder) ∧
       t.svc.ports = updAt s.svc.ports port (fun p => { p with cxl := cxl }) ∧ (s.svc.holder = port + 1 → (s.func port).busy = true → port ∈ t.svc.grace) ∧ t.svc.mailbox = s.svc.mailbox ∧
       t = { s with svc := t.svc }) ∧
  (∀ (s : State) (off len : Nat),
     (s.svc.cgen.getLsbD 0 = false → s.svc.shadow.length = 768 →
       ∃ t, exec .censusUpdate s = .next t ∧ t.svc.cgen = s.svc.cgen + 1 ∧ t.svc.shadow = (s.svc.cgen + 1) :: s.svc.shadow.tail ∧
         t = { s with svc := { s.svc with cgen := t.svc.cgen, shadow := t.svc.shadow } }) ∧
     (s.svc.cgen.getLsbD 0 = true → ∃ t, exec .censusUpdate s = .next t ∧ t.svc.cgen = s.svc.cgen + 1 ∧ t.svc.shadow.length = 768 ∧ t.svc.shadow.getD 0 0#32 = s.svc.cgen + 1 ∧
       (t.svc.shadow.getD 2 0#32).toNat = s.svc.health % 4 + (if s.svc.replace then 4 else 0) ∧ t.svc.shadow.getD 5 0#32 = s.svc.planes.setWidth 32 ∧
       t = { s with svc := { s.svc with cgen := t.svc.cgen, shadow := t.svc.shadow } }) ∧
     (s.svc.runs = false → exec (.censusRead off len) s = .next s) ∧
     (s.svc.runs = true → s.svc.shadow.length = 768 →
       ∃ t bs, exec (.censusRead off len) s = .next t ∧ t.fabric.out = s.fabric.out ++ [(s.nextId, .mgmt none 0x7E bs)] ∧ bs.length = len ∧
         (∀ k < len, off + k < 3072 → bs.getD k 0#8 = BitVec.ofNat 8 ((s.svc.shadow.getD ((off + k) / 4) 0#32).toNat / 2 ^ (8 * ((off + k) % 4)))) ∧
         t = { s with nextId := s.nextId + 1, fabric := t.fabric }))

/-- R319 to R321, R341, R353: what a function that exists, is not resetting and holds a queue writes to its registers: QWRITE takes a value that keeps
the ring and is not behind; EN set with a live context of the function enables it, EN clear disables it and drops what was read of its head (log 31)
and DRAIN marks it; on a queue that it does not hold nothing is written. That EN set for a context of the function that is killed, or whose kill has
begun, changes nothing is the model's choice (log 39). R357, R362: ACQ takes the free control semaphore for a port's physical function, and REL frees
it where that function holds it; neither changes anything else. MBDOOR puts the request behind the others and sets BUSY, and does nothing while BUSY
is set; one whose code names no command is answered INVALID once those before it are answered (R358). -/
def Obligations.QueueRegisters : Prop :=
  (∀ (s : State) (f q : Nat) (v : Word),
     let x := s.queue q
     let y := fun (t : State) => t.queue q
     let may := s.present f = true ∧ (s.func f).resetting = false ∧ s.holdsQueue f q = true
     (¬ may → exec (.qwrite f q v) s = .next s ∧ exec (.qctlEnSet f q v) s = .next s ∧ exec (.qctlEnClear f q v) s = .next s ∧ exec (.qctlDrain f q v) s = .next s) ∧
     (may → q < s.queues.length →
       ((x.widx - x.ridx).toNat ≤ (v - x.ridx).toNat → (v - x.ridx).toNat ≤ 2 ^ x.log2n →
         ∃ t, exec (.qwrite f q v) s = .next t ∧ y t = { x with widx := v } ∧ t = { s with queues := t.queues } ∧ ∀ k, k ≠ q → t.queue k = s.queue k) ∧
       ((v - x.ridx).toNat < (x.widx - x.ridx).toNat ∨ 2 ^ x.log2n < (v - x.ridx).toNat → exec (.qwrite f q v) s = .next s) ∧
       (x.en = false → v.getLsbD 31 = true → v.getLsbD 30 = false →
         let c := v.toNat / 2 ^ 24 % 64
         let n := v.toNat / 2 ^ 11 % 32
         (s.holdsCtx f c = true → (s.ctx c).live = true →
           ∃ t, exec (.qctlEnSet f q v) s = .next t ∧ (y t).en = true ∧ (y t).ctx = c ∧ (y t).cls = v.toNat % 4 ∧ (y t).weight = v.toNat / 2 ^ 16 % 256 ∧
             (y t).log2n = (if 4 ≤ n ∧ n ≤ 16 then n else x.log2n) ∧ (y t).ridx = x.ridx ∧ (y t).widx = x.widx ∧ t = { s with queues := t.queues }) ∧
         (s.holdsCtx f c = false ∨ (s.ctx c).live = false → exec (.qctlEnSet f q v) s = .next s)) ∧
       (x.en = true → v.getLsbD 31 = false →
         ∃ t, exec (.qctlEnClear f q v) s = .next t ∧ (y t).en = false ∧ (y t).drain = false ∧ (y t).mark = none ∧ (y t).head = none ∧ (y t).ridx = x.ridx ∧ t = { s with queues := t.queues }) ∧
       (x.drain = false → v.getLsbD 30 = true → v.getLsbD 31 = x.en →
         ∃ t, exec (.qctlDrain f q v) s = .next t ∧ (y t).drain = true ∧ (y t).mark = some x.widx ∧ (y t).en = x.en ∧ (y t).head = x.head ∧ t = { s with queues := t.queues }))) ∧
  (∀ (s : State) (f : Nat),
     s.windowOpen f = true →
     (f < 2 → exec (.ctlsemAcq f) s = .next { s with svc := { s.svc with holder := if s.svc.holder = 0 then f + 1 else s.svc.holder } } ∧
       exec (.ctlsemRel f) s = .next { s with svc := { s.svc with holder := if s.svc.holder = f + 1 then 0 else s.svc.holder } }) ∧
     (2 ≤ f → exec (.ctlsemAcq f) s = .next s ∧ exec (.ctlsemRel f) s = .next s) ∧
     ((s.func f).busy = true → exec (.mbdoor f) s = .next s) ∧
     ((s.func f).busy = false → f < s.svc.funcs.length →
       let known := fun (w : List Word) => 1 ≤ (w.getD 0 0#32).toNat % 256 ∧ (w.getD 0 0#32).toNat % 256 ≤ 12
       (∀ m ∈ s.svc.mailbox.head?, known m.2) → ∃ t, exec (.mbdoor f) s = .next t ∧
         (known (s.func f).mbreq ∨ s.svc.mailbox ≠ [] → (t.func f).busy = true ∧ t.svc.mailbox = s.svc.mailbox ++ [(f, (s.func f).mbreq)]) ∧
         (¬ known (s.func f).mbreq → s.svc.mailbox = [] → (t.func f).busy = false ∧ (t.func f).status = 2 ∧ t.svc.mailbox = []) ∧ ∀ k, k ≠ f → t.func k = s.func k))

/-- R325, R356, R398, R400: a function's writes to the registers of a context that it holds. An event counter takes the value, as a release at system
scope; SRDONE takes one that is neither past SRSEQ nor behind, which resolves the requests up to it; INJCTL arms at the sector that INJADDR names
where the context may inject, and disarms. R8, R354, R355, R319, R356: a 32-bit write to BAR0 writes the register at its offset: the mailbox words and
HCTX of the function, a queue's QWRITE, a context's counters. One to a read-only or unassigned offset, or to one that is not a multiple of 4, changes
nothing. R353: VF ENABLE is the port's, and FSTAT of a function that does not exist reads absent. R367, R369 to R371: FLR of a function that is ready
begins its reset: it and, with a physical function, its enabled virtual functions are resetting, and the queues of each function that is reset are
disabled, a physical function's being those that it enabled (log 31). FLR of one that is resetting ends the reset, once the request that was in
progress when it began and the function's own are served: where nothing of its contexts is outstanding, they are free and its control block is as
after reset. -/
def Obligations.RegisterWindows : Prop :=
  (∀ (s : State) (f tag n : Nat) (v : Word),
     let c := s.ctx tag
     (s.ctxOpen f tag = false → exec (.ectrWrite f tag n v) s = .next s ∧ exec (.srdoneWrite f tag v) s = .next s ∧ exec (.injctlArm f tag v) s = .next s ∧ exec (.injctlDisarm f tag v) s = .next s) ∧
     (s.ctxOpen f tag = true → tag < s.ctxs.length →
       (n < c.ectr.length → n < 64 → ∃ t, exec (.ectrWrite f tag n v) s = .next t ∧ (t.ctx tag).ectr = updAt c.ectr n (fun _ => v) ∧ t.mem = s.mem.sync ∧ t.warp = s.warp ∧
         (∀ q h k, (t.queue q).ctx = tag → (t.queue q).head = some h → k < h.pkt.waits.length → (h.pkt.waits.getD k (0, 0)).1 = n → 0 ≤ (v - BitVec.ofNat 32 (h.pkt.waits.getD k (0, 0)).2).toInt →
           h.met.getD k false = true)) ∧
       ((v - BitVec.ofNat 32 c.srSeq).toInt ≤ 0 → 0 ≤ (v - BitVec.ofNat 32 c.srDone).toInt →
         ∃ t, exec (.srdoneWrite f tag v) s = .next t ∧ (t.ctx tag).srDone = v.toNat ∧ (∀ m ∈ (t.ctx tag).misses, (v - BitVec.ofNat 32 m.2.2).toInt < 0) ∧ t = { s with ctxs := t.ctxs }) ∧
       (0 < (v - BitVec.ofNat 32 c.srSeq).toInt ∨ (v - BitVec.ofNat 32 c.srDone).toInt < 0 → ∃ t, exec (.srdoneWrite f tag v) s = .next t ∧ t.ctx tag = c) ∧
       (c.inject = false → exec (.injctlArm f tag v) s = .next s ∧ exec (.injctlDisarm f tag v) s = .next s) ∧
       (c.inject = true → v.getLsbD 3 = true → v.toNat % 4 < 3 → ∀ e, s.walk 4 tag 0 c.injAddr = .leaf e →
         ∃ t, exec (.injctlArm f tag v) s = .next t ∧ t.ctx tag = { c with
           injArm := true, injUnc := v.getLsbD 2, injLevel := v.toNat % 4, injSector := (e.frame + c.injAddr.toNat % 65536) / 32 } ∧ t = { s with ctxs := t.ctxs }) ∧
       (c.inject = true → v.getLsbD 3 = false →
         ∃ t, exec (.injctlDisarm f tag v) s = .next t ∧ t.ctx tag = { c with injArm := false, injUnc := v.getLsbD 2, injLevel := v.toNat % 4 } ∧ t = { s with ctxs := t.ctxs }))) ∧
  (∀ (s : State) (f off q tag n : Nat) (v : Word) (port : Nat) (on : Bool),
     (off % 4 ≠ 0 → exec (.registerWrite f off v) s = .next s) ∧ (s.present f = false → s.bar0Read f 4 = 2#32) ∧
     (off % 4 = 0 → 0x60000 ≤ off ∨ (0x100 ≤ off ∧ off < 0x10000) → exec (.registerWrite f off v) s = .next s) ∧
     (s.windowOpen f = true → f < s.svc.funcs.length →
       (∃ t, exec (.registerWrite f 0xC v) s = .next t ∧ (t.func f).hctx = v.toNat % 64 ∧ t = { s with svc := t.svc } ∧ ∀ k, k ≠ f → t.func k = s.func k) ∧
       (n < 16 → ∃ t, exec (.registerWrite f (0x40 + 4 * n) v) s = .next t ∧ (t.func f).mbreq = updAt (s.func f).mbreq n (fun _ => v) ∧ t = { s with svc := t.svc }) ∧
       (n = 4 ∨ n = 0x84 ∨ n = 0x88 → exec (.registerWrite f n v) s = .next s) ∧
       (q < 256 → s.holdsQueue f q = true → (v - (s.queue q).ridx).toNat ≤ 2 ^ (s.queue q).log2n → ((s.queue q).widx - (s.queue q).ridx).toNat ≤ (v - (s.queue q).ridx).toNat → q < s.queues.length →
         ∃ t, exec (.registerWrite f (0x10000 + 64 * q + 0x10) v) s = .next t ∧ t.queue q = { s.queue q with widx := v } ∧ t = { s with queues := t.queues }) ∧
       (tag < 64 → s.holdsCtx f tag = true → tag < s.ctxs.length →
         (∃ t, exec (.registerWrite f (0x20000 + 4096 * tag + 0x110) v) s = .next t ∧ t.ctx tag = { s.ctx tag with eqRead := v } ∧ t = { s with ctxs := t.ctxs }) ∧
         (n = 0x10C ∨ n = 0x130 ∨ n = 0x14C ∨ n = 0x160 → exec (.registerWrite f (0x20000 + 4096 * tag + n) v) s = .next s))) ∧
     (port < s.svc.ports.length → ∃ t, exec (.vfEnable port on) s = .next t ∧ t.svc.ports = updAt s.svc.ports port (fun p => { p with vfEnable := on }) ∧ t = { s with svc := t.svc })) ∧
  (∀ (s : State) (f : Nat),
     let among := fun (k : Nat) => k = f ∨ (f < 2 ∧ 2 ≤ k ∧ (s.func k).port = some f ∧ s.present k = true)
     let hit := fun (q : Nat) => ∃ k < 18, among k ∧ ((k < 2 ∧ (s.queue q).claim = some k) ∨ (2 ≤ k ∧ q ∈ (s.func k).queues))
     (s.present f = false → exec (.flr f) s = .next s) ∧
     (s.present f = true → (s.func f).resetting = false → s.svc.funcs.length = 18 →
       ∃ t, exec (.flr f) s = .next t ∧
         (∀ k < 18, (t.func k).resetting = true ↔ (s.func k).resetting = true ∨ among k) ∧
         (∀ q < s.queues.length, (hit q → (t.queue q).en = false ∧ (t.queue q).head = none) ∧ (¬ hit q → t.queue q = s.queue q)) ∧ t.ctxs = s.ctxs ∧ t.wgs = s.wgs ∧
         (s.svc.mailbox ≠ [] → f ∈ t.svc.early)) ∧
     (s.present f = true → (s.func f).resetting = true → (s.svc.mailbox.head?.map Prod.fst) = some f ∨ f ∈ s.svc.early → exec (.flr f) s = .next s) ∧
     (s.present f = true → (s.func f).resetting = true → (s.svc.mailbox.head?.map Prod.fst) ≠ some f → f ∉ s.svc.early → f < s.svc.funcs.length → s.ctxs.length = 64 →
       s.fabric.requests = [] → s.svc.observing = [] → (∀ k, s.queuedHost k = false) → (∀ k, (s.ctx k).dying = none) → s.svc.errors = [] →
       ∃ t, exec (.flr f) s = .next t ∧ (∀ k, t.holdsCtx f k = false) ∧ t.func f = { s.func f with
           resetting := false, hctx := 0, mbreq := List.replicate 16 0#32, busy := false, status := 0, result := 0#32 } ∧
         (∀ m ∈ t.svc.mailbox, m.1 ≠ f) ∧ ∀ k, s.holdsCtx f k = false → (t.ctx k).state = (s.ctx k).state))

/-- R268, R355: an access of the host to device memory under a context that the function does not hold completes with Unsupported Request; one that
meets a fault reads nothing and completes with Completer Abort; else it reads the bytes that the home die sees, and of the rest only the lines of L2
may change (log 45), or writes them; through CXL.mem a line that was read may be cached. -/
def Obligations.HostAccess : Prop :=
  ∀ (s : State) (f : Nat) (off : DWord) (n : Nat) (bs : List Byte),
    let tag := (s.func f).hctx
    let out := fun (x : OutMsg) => { s with nextId := s.nextId + 1, fabric := { s.fabric with out := s.fabric.out ++ [(s.nextId, x)] } }
    let cxl := (s.svc.ports.getD f default).cxl
    (s.present f = false → exec (.bar2Read f off n) s = .next s ∧ exec (.bar2Write f off bs) s = .next s ∧ exec (.hostCxlMemAccess f off n none) s = .next s) ∧
    (s.windowOpen f = true → cxl = false → exec (.hostCxlMemAccess f off n (some bs)) s = .next s) ∧
    (s.windowOpen f = true → s.holdsCtx f tag = false → exec (.bar2Read f off n) s = .next (out (.completion 1 [] false)) ∧ exec (.bar2Write f off bs) s = .next (out (.completion 1 [] false)) ∧
      (cxl = true → exec (.hostCxlMemAccess f off n none) s = .next (out (.completion 1 [] false)))) ∧
    (s.windowOpen f = true → s.holdsCtx f tag = true →
      (s.svc.errors = [] → (s.ctx tag).injArm = false → ∀ k, (s.lookup none 4 tag 0 off false).2 = .fault k → k ≠ .pageMiss → 0 < n → exec (.bar2Read f off n) s = .next (out (.completion 2 [] false)) ∧
        (cxl = true → exec (.hostCxlMemAccess f off n none) s = .next (out (.completion 2 [] false)))) ∧
      (∀ e, (s.lookup none 4 tag 0 off false).2 = .leaf e → s.svc.errors = [] → (∀ pa, s.locate pa = none) → (s.ctx tag).injArm = false →
        let pa := e.frame + off.toNat % 65536
        let m := s.mem.view (homeDie pa)
        0 < n → pa % 32 + n ≤ 32 →
        (∃ t, exec (.bar2Read f off n) s = .next t ∧ t = { out (.completion 0 (m.bytes pa n) (m.token pa).isSome) with l2 := t.l2 }) ∧
        (cxl = true → (s.svc.directory.filter fun l => homeDie (l * 128) == homeDie (pa / 128 * 128)).length < 2 ^ 18 →
          ∃ t, exec (.hostCxlMemAccess f off n none) s = .next t ∧ t.fabric.out = s.fabric.out ++ [(s.nextId, .completion 0 (m.bytes pa n) (m.token pa).isSome)] ∧ pa / 128 ∈ t.svc.directory ∧ t.mem = s.mem)) ∧
      (∀ e, (s.lookup none 4 tag 0 off true).2 = .leaf e → s.svc.errors = [] → (s.ctx tag).injArm = false → (∀ pa, s.locate pa = none) → s.svc.directory = [] → s.mem.shaped → s.memWf = true →
        let pa := e.frame + off.toNat % 65536
        0 < bs.length → off.toNat % 32 + bs.length ≤ 32 → off.toNat % 65536 + bs.length ≤ 65536 → e.frame % 65536 = 0 → (s.mem.catchUp 4 pa |>.view 4).token pa = none →
        let writes := fun (i : Instr) => ∃ t, exec i s = .next t ∧ t = { s with mem := t.mem } ∧ (t.mem.view 4).bytes pa bs.length = bs ∧
          ∀ b, b < pa ∨ pa + bs.length ≤ b → (t.mem.view 4).byte b = ((s.mem.catchUp 4 pa).view 4).byte b
        writes (.bar2Write f off bs) ∧ (cxl = true → writes (.hostCxlMemAccess f off n (some bs)))))

/-- R357, R358: the oldest request is answered once, its function no longer busy, and it takes effect wholly or not at all: one whose status is not OK
changes nothing else, and its RESULT is 0 (log 32). R197, R279, R351, R418: CREATE makes the lowest free context live for its function; DESTROY frees
one of its function's; SETROOT sets a table; INVAL takes the pages out of every TLB; CHANNEL gives or takes a channel. A request whose code names no
command is answered INVALID when its turn comes. DESTROY stays in progress until the kill that it begins has ended (log 47), and INVAL while accesses
that used an old translation are still to be performed; that these are the context's copies whichever pages they use, and its SPACE 2 accesses, is the
model's choice (log 74). -/
def Obligations.ContextCommands : Prop :=
  ∀ (s : State) (f tag : Nat) (a : List Word),
    f < s.svc.funcs.length → s.ctxs.length = 64 →
    let n := fun k => (a.getD (k - 1) 0#32).toNat
    let answered := fun (t : State) (st res : Nat) => t.svc.mailbox = s.svc.mailbox.drop 1 ∧ t.func f = { s.func f with busy := false, status := st, result := BitVec.ofNat 32 res }
    let head := fun code => s.atHead f code a = true
    let only := fun (i : Instr) (st : Nat) => ∃ t : State, exec i s = .next t.nextRequest ∧ answered t st 0 ∧ t = { s with svc := { s.svc with mailbox := t.svc.mailbox, funcs := t.svc.funcs, grace := t.svc.grace, early := t.svc.early } } ∧ ∀ k, k ≠ f → t.func k = s.func k
    let known := fun (w : List Word) => 1 ≤ (w.getD 0 0#32).toNat % 256 ∧ (w.getD 0 0#32).toNat % 256 ≤ 12
    (∀ u : State, (∀ m ∈ u.svc.mailbox.head?, known m.2) → u.nextRequest = u) ∧
    (∀ (u : State) g w rest, u.svc.mailbox = (g, w) :: rest → ¬ known w → (∀ m ∈ rest.head?, known m.2) → g < u.svc.funcs.length →
      u.nextRequest.svc.mailbox = rest ∧ u.nextRequest.func g = { u.func g with busy := false, status := 2, result := 0#32 } ∧ ∀ k, k ≠ g → u.nextRequest.func k = u.func k) ∧
    (s.svc.mailbox = [] → ∀ i ∈ [Instr.create f a, .destroy f a, .setroot f a, .inval f a, .channel f a], exec i s = .next s) ∧
    (head 1 → (a.getD 0 0#32).getLsbD 0 = false → (if f < 2 then s.held 0 + s.held 1 else s.held f) < s.quota f →
      1 ≤ tag → tag < 64 → (s.ctx tag).state = 0 → (∀ k, 1 ≤ k → k < tag → (s.ctx k).state ≠ 0) →
      ∃ t : State, exec (.create f a) s = .next t.nextRequest ∧ answered t 0 tag ∧ t.ctx tag = { Ctx.fresh with state := 1, func := f, inject := false } ∧ ∀ k, k ≠ tag → t.ctx k = s.ctx k) ∧
    (head 1 → (a.getD 0 0#32).getLsbD 0 = true → s.isHolder f = false → only (.create f a) 1) ∧
    (head 1 → (a.getD 0 0#32).getLsbD 0 = false → s.quota f ≤ (if f < 2 then s.held 0 + s.held 1 else s.held f) → only (.create f a) 3) ∧
    (∀ i ∈ [(2, Instr.destroy f a), (3, .setroot f a), (4, .inval f a), (7, .channel f a)], head i.1 →
      (n 1 = 0 ∨ 64 ≤ n 1 → only i.2 2) ∧ (1 ≤ n 1 → n 1 < 64 → s.holdsCtx f (n 1) = false → only i.2 1)) ∧
    (s.holdsCtx f (n 1) = true →
      (head 2 → (s.ctx (n 1)).live = true → (∃ r ∈ s.fabric.requests, r.tag = n 1) →
        ∃ t, exec (.destroy f a) s = .next t ∧ t.svc.mailbox = s.svc.mailbox ∧ (t.ctx (n 1)).state = 1 ∧ (t.ctx (n 1)).dying.isSome = true ∧ ∀ l ∈ t.launches, l.tag ≠ n 1) ∧
      (head 2 → s.destroyWaits f a = true → exec (.destroy f a) s = .next s) ∧
      (head 2 → (∀ r ∈ s.fabric.requests, r.tag ≠ n 1) → s.svc.observing = [] → s.queuedHost (n 1) = false → (s.ctx (n 1)).dying = none →
        ∃ t : State, exec (.destroy f a) s = .next t.nextRequest ∧ answered t 0 0 ∧ t.ctx (n 1) = Ctx.fresh ∧ (∀ c ∈ t.fabric.send, c.tag ≠ n 1) ∧ (∀ c ∈ t.fabric.recv, c.tag ≠ n 1) ∧
        ∀ k, k ≠ n 1 → (t.ctx k).state = (s.ctx k).state) ∧
      (head 3 → let root := n 3 + 2 ^ 32 * n 4
        (n 2 < 3 → root % 8192 = 0 → root < 2 ^ 40 → s.svc.mayUse f (root / 65536) = true →
          ∃ t : State, exec (.setroot f a) s = .next t.nextRequest ∧ answered t 0 0 ∧ t.ctx (n 1) = { s.ctx (n 1) with roots := updAt (s.ctx (n 1)).roots (n 2) fun _ => some root }) ∧
        (n 2 < 3 → root % 8192 = 0 → root < 2 ^ 40 → s.svc.mayUse f (root / 65536) = false → only (.setroot f a) 2)) ∧
      (s.invalWaits f a = true → exec (.inval f a) s = .next s) ∧
      (head 4 → n 2 < 3 → s.invalWaits f a = false → let first := (n 3 + 2 ^ 32 * n 4) / 65536
        ∃ t : State, exec (.inval f a) s = .next t.nextRequest ∧ answered t 0 0 ∧ (∀ c ∈ t.cores, ∀ e ∈ c.tlb, ¬ (e.tag = n 1 ∧ e.space = n 2 ∧ first ≤ e.page ∧ e.page < first + n 5)) ∧
          (∀ l ∈ t.l2tlb, ∀ e ∈ l, ¬ (e.tag = n 1 ∧ e.space = n 2 ∧ first ≤ e.page ∧ e.page < first + n 5)) ∧
          (n 2 = 0 → ∀ g ∈ t.wgs, g.tag = n 1 → g.saved = false → g.ended = false → ∀ m ∈ g.smap, m.valid = true → ∀ p, first ≤ p → p < first + n 5 → ¬ (m.gbase < 65536 * (p + 1) ∧ 65536 * p < m.gbase + m.len))) ∧
      (head 7 → n 2 < 4608 → n 3 < 16 → n 5 ≤ 10000 →
        (n 4 = 0 → (∀ c ∈ s.fabric.send, c.node = n 2 → c.chan = n 3 → c.tag = n 1) →
          ∃ t : State, exec (.channel f a) s = .next t.nextRequest ∧ answered t 0 0 ∧ t.ownsSend (n 1) (n 2) (n 3) = true ∧ t.fabric.recv = s.fabric.recv ∧ t.mem = s.mem) ∧
        (n 4 = 0 → (∃ c ∈ s.fabric.send, c.node = n 2 ∧ c.chan = n 3 ∧ c.tag ≠ n 1) → only (.channel f a) 4) ∧
        (n 4 = 1 → (∀ c ∈ s.fabric.recv, c.node = n 2 → c.chan = n 3 → c.tag = n 1) →
          ∃ t u : State, exec (.channel f a) s = .next t.nextRequest ∧ answered t 0 0 ∧ t.ctxs = (u.admitLink).ctxs ∧ t.fabric = u.admitLink.fabric ∧
            u.recvOf (n 2) (n 3) = some { node := n 2, chan := n 3, tag := n 1, count := 0#32, hold := if n 5 = 0 then 100 else n 5, cause := none } ∧ u.fabric.send = s.fabric.send ∧
            (∀ h ∈ u.fabric.easel ++ u.fabric.waiting, ¬ (h.pkt.src = n 2 ∧ h.pkt.chan = n 3)) ∧ u.fabric.link = s.fabric.link) ∧
        (n 4 = 2 → (∀ c ∈ s.fabric.send, c.node = n 2 → c.chan = n 3 → c.tag = n 1) → (∀ c ∈ s.fabric.recv, c.node = n 2 → c.chan = n 3 → c.tag = n 1) →
          ∃ t : State, exec (.channel f a) s = .next t.nextRequest ∧ answered t 0 0 ∧ (∀ c ∈ t.fabric.send, ¬ (c.node = n 2 ∧ c.chan = n 3)) ∧ ∀ c ∈ t.fabric.recv, ¬ (c.node = n 2 ∧ c.chan = n 3))))

/-- R351, R353, R358 to R360, R365, R396: the commands of the port that holds the semaphore, and SHARE. GRANT gives the frames of a range to a
function, shared with none and holding zeros; a frame of another function that holds a LINE_POISON sector is retired in its place. SHARE adds or takes
away a function, as an invalidation of the frames (R197); both stay in progress while copies of a context that may use one of the frames are under
way, whichever frames they use, which is the model's choice (log 74). A function that is resetting is answered CONFLICT, but for a request that was in
progress when its reset began (R371). VFASSIGN and ISOLATE set up a virtual function, FWUPDATE stages an image that passes its check, DRAIN drains
every queue (log 39) and RESET resets the device. -/
def Obligations.DeviceCommands : Prop :=
  ∀ (s : State) (f : Nat) (a : List Word),
    f < s.svc.funcs.length → s.svc.funcs.length = 18 →
    let n := fun k => (a.getD (k - 1) 0#32).toNat
    let answered := fun (t : State) (st res : Nat) => t.svc.mailbox = s.svc.mailbox.drop 1 ∧ (t.func f).busy = false ∧ (t.func f).status = st ∧ (t.func f).result = BitVec.ofNat 32 res
    let head := fun code => s.atHead f code a = true
    let refused := fun (i : Instr) (st : Nat) => ∃ t : State, exec i s = .next t.nextRequest ∧ answered t st 0 ∧ t = { s with svc := { s.svc with mailbox := t.svc.mailbox, funcs := t.svc.funcs, grace := t.svc.grace, early := t.svc.early } }
    (s.isHolder f = false → ∀ i ∈ [(5, Instr.grant f a), (8, .vfassign f a), (9, .isolate f a), (10, .fwupdate f a), (11, .drain f a), (12, .reset f a)], head i.1 → refused i.2 1) ∧
    let steady := fun (g : Nat) => (s.func g).resetting = false ∨ g ∈ s.svc.early
    (s.isHolder f = true →
      (head 5 → n 1 < 18 → n 2 + n 3 ≤ 2 ^ 24 → ¬ steady (n 1) → refused (.grant f a) 4) ∧
      (s.grantWaits f a = true → exec (.grant f a) s = .next s) ∧
      (head 5 → s.grantWaits f a = false → n 1 < 18 → n 2 + n 3 ≤ 2 ^ 24 → steady (n 1) →
        let bad := fun x => x ∈ s.svc.lpFrames ∧ (s.svc.frame x).1 ≠ n 1 ∧ (s.svc.frame x).1 < 18
        (s.svc.lpFrames.Nodup) →
        ∃ t : State, exec (.grant f a) s = .next t.nextRequest ∧ answered t 0 ((s.svc.lpFrames.filter fun x => decide (n 2 ≤ x ∧ x < n 2 + n 3) && (s.svc.frame x).1 != n 1 && decide ((s.svc.frame x).1 < 18)).length) ∧
          ∀ x, (n 2 ≤ x → x < n 2 + n 3 → (¬ bad x → t.svc.frame x = (n 1, 0#18)) ∧ (bad x → t.svc.frame x = (30, 0#18)) ∧
              (s.mem.shaped → s.cores.length = 256 → (∀ g ∈ s.wgs, g.core < 256) → ¬ bad x → (s.svc.frame x).1 ≠ n 1 → ∀ b, b / 65536 = x → t.mem.base.byte b = 0#8 ∧ t.mem.base.token b = none)) ∧
            (x < n 2 ∨ n 2 + n 3 ≤ x → t.svc.frame x = s.svc.frame x)) ∧
      (head 8 → let g := n 1 + 1
        1 ≤ n 1 → n 1 ≤ 16 → n 2 ≤ 1 → steady g → (∀ x ∈ s.wgs, x.saved = true ∨ x.ended = true ∨ (s.ctx x.tag).func ≠ g) →
        (∀ k, 2 ≤ k → k < 18 → k ≠ g → (s.func k).clusters &&& arg64 a 3 = 0#64 ∧ (s.func k).ways &&& (a.getD 4 0#32).setWidth 16 = 0#16 ∧ ∀ q ∈ queueMask a, q ∉ (s.func k).queues) →
        2 ≤ ((List.range 16).filter fun i => !((a.getD 4 0#32).setWidth 16 : BitVec 16).getLsbD i && (List.range 18).all fun k => k < 2 || k == g || !(s.func k).ways.getLsbD i).length →
        (∀ q ∈ queueMask a, (s.queue q).claim = none ∨ q ∈ (s.func g).queues) → s.svc.quotas - (s.func g).quota + n 6 ≤ 63 - (s.held 0 + s.held 1) →
        ∃ t : State, exec (.vfassign f a) s = .next t.nextRequest ∧ answered t 0 0 ∧ (t.func g).port = some (n 2) ∧ (t.func g).clusters = arg64 a 3 ∧ (t.func g).ways = (a.getD 4 0#32).setWidth 16 ∧ (t.func g).quota = n 6 ∧
          (t.func g).queues = queueMask a ∧ ∀ q ∈ (s.func g).queues, q ∉ queueMask a → (t.queue q).en = false) ∧
      (head 9 → 2 ≤ n 1 → n 1 < 18 → steady (n 1) →
        (n 2 = 0 → ∃ t : State, exec (.isolate f a) s = .next t.nextRequest ∧ answered t 0 0 ∧ (t.func (n 1)).isolated = false) ∧
        (n 2 = 1 → (s.func (n 1)).clusters ≠ 0#64 → (s.func (n 1)).ways ≠ 0#16 → (s.svc.funcs.filter Func.isolated).length < 7 →
          ∃ t : State, exec (.isolate f a) s = .next t.nextRequest ∧ answered t 0 0 ∧ (t.func (n 1)).isolated = true) ∧
        (n 2 = 1 → (s.func (n 1)).clusters = 0#64 → refused (.isolate f a) 2)) ∧
      (head 10 → s.holdsCtx f (n 1) = true → ∀ u bs, s.hostBytes (n 1) (n 4 / 32 + 2) (arg64 a 2) (n 4) = (u, .data bs false) →
        (s.svc.admits bs = some true → ∃ t : State, exec (.fwupdate f a) s = .next t.nextRequest ∧ answered t 0 0 ∧ t.svc.cpImage = { u.svc.cpImage with staged := some bs } ∧ t.svc.slImage = u.svc.slImage) ∧
        (s.svc.admits bs = some false → ∃ t : State, exec (.fwupdate f a) s = .next t.nextRequest ∧ answered t 0 0 ∧ t.svc.slImage = { u.svc.slImage with staged := some bs } ∧ t.svc.cpImage = u.svc.cpImage) ∧
        (s.svc.admits bs = none → refused (.fwupdate f a) 2)) ∧
      (head 11 → ∃ t : State, exec (.drain f a) s = .next t.nextRequest ∧ answered t 0 0 ∧ t.queues.length = s.queues.length ∧
        ∀ q < s.queues.length, (t.queue q).drain = true ∧ (t.queue q).mark = (if (s.queue q).drain then (s.queue q).mark else some (s.queue q).widx) ∧ (t.queue q).en = (s.queue q).en) ∧
      (head 12 → ∃ t, exec (.reset f a) s = .next t ∧ t.launches = [] ∧ t.wgs = [] ∧ t.svc.frames = [] ∧ t.svc.holder = 0 ∧ t.svc.mailbox = [] ∧ (∀ k, 1 ≤ k → t.ctx k = Ctx.fresh) ∧ t.svc.powered = true)) ∧
    (s.shareWaits f a = true → exec (.share f a) s = .next s) ∧
    (head 6 →
      ((∃ k < n 3, (s.svc.frame (n 2 + k)).1 ≠ f) → refused (.share f a) 1) ∧
      ((∀ k < n 3, (s.svc.frame (n 2 + k)).1 = f) → 18 ≤ n 1 ∨ 2 ^ 24 < n 2 + n 3 ∨ 1 < n 4 → refused (.share f a) 2) ∧
      ((∀ k < n 3, (s.svc.frame (n 2 + k)).1 = f) → n 1 < 18 → n 2 + n 3 ≤ 2 ^ 24 → n 4 ≤ 1 → steady (n 1) → s.shareWaits f a = false →
        ∃ t : State, exec (.share f a) s = .next t.nextRequest ∧ answered t 0 0 ∧
        (∀ c ∈ t.cores, ∀ e ∈ c.tlb, e.space ≤ 1 → e.frame / 65536 < n 2 ∨ n 2 + n 3 ≤ e.frame / 65536) ∧
        ∀ x, t.svc.frame x = if n 2 ≤ x ∧ x < n 2 + n 3 then (f, if n 4 = 1 then (s.svc.frame x).2 ||| (1#18 <<< n 1) else (s.svc.frame x).2 &&& ~~~ (1#18 <<< n 1)) else s.svc.frame x))

/-- R18, R364, R366, R403: while the Safelight runs each request of the management port, and each through DOE of function 0 or 1, is answered with one
message; the SPDM version is 1.2 and 1.3, the extended algorithm stands under Oteth's vendor ID, GET_CERTIFICATE gives a part of the chain,
GET_DIGESTS the SHA-384 of the chain, the measurements are SHA-384 of what they measure, and they and the challenge carry a signature of the alias key
over what they hold with the nonce; an unsupported request is named in its error. Without the Safelight, and through another function, none is
answered; the FRU EEPROM always is. The layouts are the model's (log 30). -/
def Obligations.ManagementResponses : Prop :=
  ∀ (s : State) (off len index sensor : Nat) (nonce : List Byte) (code : Byte),
    let via := s.via
    let sends := fun (i : Instr) (v : Option Nat) (c : Nat) (bs : List Byte) =>
      exec i s = .next { s with nextId := s.nextId + 1, fabric := { s.fabric with out := s.fabric.out ++ [(s.nextId, .mgmt v c bs)] } }
    let all := [1, 2, 3, 4, 5].flatMap s.measure
    let spdm := [Instr.getVersion, .getCapabilities, .negotiateAlgorithms, .getDigests, .getCertificate off len, .challenge nonce, .getMeasurements index nonce, .unsupportedRequest code]
    sends (.fruEepromRead off len) none 0 ((List.range len).map fun k => Config.fru (off + k)) ∧
    (s.svc.runs = false → ∀ i ∈ spdm ++ [.pldmSensorRead sensor, .censusRead off len], exec i s = .next s) ∧
    (∀ f, via = some f → 2 ≤ f → ∀ i ∈ spdm, exec i s = .next s) ∧
    (s.svc.runs = true → sends (.pldmSensorRead sensor) none 0x02 (natLE 4 (Config.sensor s.tick sensor).toNat)) ∧
    (s.svc.runs = true → (∀ f, via = some f → f < 2) →
      sends .getVersion via 0x04 [0x12#8, 0x13#8] ∧ sends .getCapabilities via 0x61 [0x16#8] ∧
      sends .negotiateAlgorithms via 0x63 (0x02#8 :: natLE 2 Config.vendorId.toNat ++ [0x01#8, 0x00#8]) ∧
      sends .getDigests via 0x01 (sha384 s.svc.certChain) ∧ sends (.getCertificate off len) via 0x02 ((s.svc.certChain.drop off).take len) ∧
      sends (.challenge nonce) via 0x03 (s.signed (sha384 all ++ nonce)) ∧ sends (.getMeasurements 0xFF nonce) via 0x60 (s.signed (all ++ nonce)) ∧
      (1 ≤ index → index ≤ 5 → sends (.getMeasurements index nonce) via 0x60 (s.signed (s.measure index ++ nonce))) ∧
      sends (.unsupportedRequest code) via 0x7F [0x07#8, code]) ∧
    s.measure 2 = sha384 (s.svc.slImage.image.getD Config.madeSafelight) ∧ s.measure 3 = sha384 (s.svc.cpImage.image.getD Config.madeCp) ∧
    s.measure 5 = sha384 (natLE 4 s.svc.slImage.svn ++ natLE 4 s.svc.cpImage.svn) ∧
    ∀ m : List Byte, s.signed m = m ++ signBytes (signWith (aliasKeyOf ([1, 2, 3, 4].flatMap (s.svc.measure State.reset.configBytes))) s.tick m)
end

