-- ==== Sys2Proof/Laws/Memory.lean ====
section
/-!
SUPPORT. Every operation on a memory keeps its canonical form, and the memory of the reset state has it.
-/
namespace Sys2Proof.Machine
open Sys2Proof

/-- The address bound of a cell list that rises above `lo`. -/
def above (lo : Option Nat) (x : Nat) : Bool := match lo with
  | none => true
  | some l => decide (l < x)

theorem cellsWf_cons (lo : Option Nat) (a : Nat) (b : Byte) (t : List Host.Cell) :
    cellsWf lo ((a, b) :: t) = (above lo a && b != 0#8 && cellsWf (some a) t) := by
  cases lo <;> rfl
theorem tokensWf_cons (lo : Option Nat) (a : Nat) (b : Word) (t : List (Nat × Word)) :
    tokensWf lo ((a, b) :: t) = (above lo a && tokensWf (some a) t) := by
  cases lo <;> rfl
theorem above_trans {lo : Option Nat} {a x : Nat} (h : above lo a = true) (hx : a < x) : above lo x = true := by
  cases lo with
  | none => rfl
  | some l => simp only [above, decide_eq_true_eq] at h ⊢; omega

theorem setCell_wf : ∀ (l : List Host.Cell) (lo : Option Nat) (x : Nat) (v : Byte), cellsWf lo l = true → above lo x = true →
    cellsWf lo (setCell l x v) = true := by
  intro l
  induction l with
  | nil =>
    intro lo x v _ hx
    rw [setCell]
    split
    · rfl
    · rename_i hv; rw [cellsWf_cons, hx]; simpa [cellsWf] using hv
  | cons c t ih =>
    intro lo x v h hx
    obtain ⟨a, b⟩ := c
    rw [cellsWf_cons, Bool.and_eq_true, Bool.and_eq_true] at h
    obtain ⟨⟨ha, hb⟩, ht⟩ := h
    rw [setCell]
    split
    · rename_i hxa
      split
      · rw [cellsWf_cons, ha, hb, ht]; rfl
      · rename_i hv
        rw [cellsWf_cons, hx, cellsWf_cons, hb, ht]; simpa [above, hxa] using hv
    · split
      · rename_i hxa
        subst hxa
        split
        · cases t with
          | nil => rfl
          | cons d t =>
            obtain ⟨e, f⟩ := d
            rw [cellsWf_cons, Bool.and_eq_true, Bool.and_eq_true] at ht ⊢
            refine ⟨⟨above_trans ha ?_, ht.1.2⟩, ht.2⟩
            simpa [above] using ht.1.1
        · rename_i hv
          rw [cellsWf_cons, ha, ht]; simpa using hv
      · rename_i h1 h2
        rw [cellsWf_cons, ha, hb, ih (some a) x v ht (by simp only [above, decide_eq_true_eq]; omega)]; rfl

theorem setToken_wf : ∀ (l : List (Nat × Word)) (lo : Option Nat) (x : Nat) (v : Option Word), tokensWf lo l = true → above lo x = true →
    tokensWf lo (setToken l x v) = true := by
  intro l
  induction l with
  | nil =>
    intro lo x v _ hx
    cases v with
    | none => rfl
    | some t => simp only [setToken]; rw [tokensWf_cons, hx]; rfl
  | cons c t ih =>
    intro lo x v h hx
    obtain ⟨a, b⟩ := c
    have h0 := h
    rw [tokensWf_cons, Bool.and_eq_true] at h
    obtain ⟨ha, ht⟩ := h
    have drop : tokensWf lo t = true := by
      cases t with
      | nil => rfl
      | cons d t =>
        obtain ⟨e, f⟩ := d
        rw [tokensWf_cons, Bool.and_eq_true] at ht ⊢
        exact ⟨above_trans ha (by simpa [above] using ht.1), ht.2⟩
    cases v with
    | none =>
      simp only [setToken]
      split
      · exact h0
      · split
        · exact drop
        · rw [tokensWf_cons, ha, ih (some a) x none ht (by simp only [above, decide_eq_true_eq]; omega)]; rfl
    | some u =>
      simp only [setToken]
      split
      · rename_i hxa
        rw [tokensWf_cons, hx, tokensWf_cons, ht]; simpa [above] using hxa
      · split
        · rename_i hxa
          subst hxa
          rw [tokensWf_cons, ha, ht]; rfl
        · rw [tokensWf_cons, ha, ih (some a) x (some u) ht (by simp only [above, decide_eq_true_eq]; omega)]; rfl

theorem Memory.wf_iff (m : Memory) : m.wf = true ↔ cellsWf none m.cells = true ∧ tokensWf none m.poison = true := by
  simp [Memory.wf]
theorem Memory.empty_wf : Memory.empty.wf = true := rfl
theorem Memory.setByte_wf {m : Memory} (h : m.wf = true) (a : Nat) (v : Byte) : (m.setByte a v).wf = true := by
  rw [Memory.wf_iff] at h ⊢
  exact ⟨setCell_wf _ none _ _ h.1 rfl, h.2⟩
theorem Memory.mark_wf {m : Memory} (h : m.wf = true) (a : Nat) (t : Option Word) : (m.mark a t).wf = true := by
  rw [Memory.wf_iff] at h ⊢
  exact ⟨h.1, setToken_wf _ none _ _ h.2 rfl⟩
theorem Memory.setBytes_wf : ∀ (bs : List Byte) {m : Memory} (_ : m.wf = true) (a : Nat), (m.setBytes a bs).wf = true
  | [], _, h, _ => h
  | _ :: bs, _, h, _ => Memory.setBytes_wf bs (Memory.setByte_wf h _ _) _
theorem Memory.maskedBytes_wf (a : Nat) (mask half : Word) : ∀ (bs : List Byte) (i : Nat) {m : Memory} (_ : m.wf = true),
    (m.maskedBytes a mask half i bs).wf = true
  | [], _, _, h => h
  | _ :: bs, i, _, h => by
    rw [Memory.maskedBytes]
    refine Memory.maskedBytes_wf a mask half bs (i + 1) ?_
    split
    · exact Memory.setByte_wf h _ _
    · exact h
/-- A sector write keeps the canonical form. -/
theorem Memory.apply_wf {m : Memory} (h : m.wf = true) (w : SectorWrite) : (m.apply w).wf = true := by
  unfold Memory.apply
  split
  · exact Memory.mark_wf h _ _
  · split
    · exact Memory.mark_wf (Memory.maskedBytes_wf _ _ _ _ _ h) _ _
    · split
      · exact h
      · exact Memory.maskedBytes_wf _ _ _ _ _ h
/-- The copy of a line keeps the canonical form of the memory that it goes to. -/
theorem copyLine_wf (src : Memory) (a : Nat) {dst : Memory} (h : dst.wf = true) (b : Nat) : (copyLine src a dst b).wf = true := by
  unfold copyLine
  generalize List.range 4 = ks
  induction ks generalizing dst with
  | nil => exact h
  | cons k ks ih =>
    rw [List.foldl_cons]
    apply ih
    split
    · exact Memory.mark_wf h _ _
    · exact Memory.mark_wf (Memory.setBytes_wf _ h _) _ _

theorem retireLog_wf (vec : List (List Nat)) : ∀ (ls : List LogEntry) {m : Memory} (_ : m.wf = true), (retireLog vec m ls).1.wf = true
  | [], _, h => h
  | l :: ls, _, h => by
    rw [retireLog]
    split
    · exact retireLog_wf vec ls (Memory.apply_wf h _)
    · exact h
theorem DevMem.retire_wf {d : DevMem} (h : d.base.wf = true) : d.retire.base.wf = true := retireLog_wf _ _ h
theorem DevMem.applyPrefix_base (d : DevMem) (e n : Nat) : (d.applyPrefix e n).base = d.base := rfl
theorem DevMem.catchUp_base (d : DevMem) (e a : Nat) : (d.catchUp e a).base = d.base := rfl
theorem DevMem.enter_base (d : DevMem) (k : Nat) (w : SectorWrite) : (d.enter k w).base = d.base := rfl
/-- Every operation on device memory keeps its canonical form. -/
theorem DevMem.applyOne_wf {d : DevMem} (h : d.base.wf = true) (e k : Nat) : (d.applyOne e k).base.wf = true := by
  unfold DevMem.applyOne
  split
  · exact h
  · exact DevMem.retire_wf h
theorem DevMem.sync_wf {d : DevMem} (h : d.base.wf = true) : d.sync.base.wf = true := by
  unfold DevMem.sync
  apply DevMem.retire_wf
  generalize List.range 5 = es
  induction es generalizing d with
  | nil => exact h
  | cons e es ih => rw [List.foldl_cons]; exact ih h
/-- The view of a die has the canonical form. -/
theorem DevMem.view_wf {d : DevMem} (h : d.base.wf = true) (e : Nat) : (d.view e).wf = true := by
  unfold DevMem.view
  generalize d.base = m at h ⊢
  generalize d.log = ls
  induction ls generalizing m with
  | nil => exact h
  | cons l ls ih =>
    rw [List.foldl_cons]
    apply ih
    split
    · exact Memory.apply_wf h _
    · exact h

theorem cellsWf_filter (p : Host.Cell → Bool) : ∀ (l : List Host.Cell) (lo : Option Nat), cellsWf lo l = true → cellsWf lo (l.filter p) = true := by
  have weak : ∀ (l : List Host.Cell) (lo : Option Nat) (a : Nat), above lo a = true → cellsWf (some a) l = true → cellsWf lo l = true := by
    intro l lo a h hl
    cases l with
    | nil => rfl
    | cons c t =>
      obtain ⟨x, y⟩ := c
      rw [cellsWf_cons, Bool.and_eq_true, Bool.and_eq_true] at hl ⊢
      exact ⟨⟨above_trans h (by simpa [above] using hl.1.1), hl.1.2⟩, hl.2⟩
  intro l
  induction l with
  | nil => intro _ _; rfl
  | cons c t ih =>
    intro lo h
    obtain ⟨a, b⟩ := c
    rw [cellsWf_cons, Bool.and_eq_true, Bool.and_eq_true] at h
    rw [List.filter_cons]
    split
    · rw [cellsWf_cons, h.1.1, h.1.2, ih _ h.2]; rfl
    · exact weak _ _ _ h.1.1 (ih _ h.2)
theorem tokensWf_filter (p : Nat × Word → Bool) : ∀ (l : List (Nat × Word)) (lo : Option Nat), tokensWf lo l = true → tokensWf lo (l.filter p) = true := by
  have weak : ∀ (l : List (Nat × Word)) (lo : Option Nat) (a : Nat), above lo a = true → tokensWf (some a) l = true → tokensWf lo l = true := by
    intro l lo a h hl
    cases l with
    | nil => rfl
    | cons c t =>
      obtain ⟨x, y⟩ := c
      rw [tokensWf_cons, Bool.and_eq_true] at hl ⊢
      exact ⟨above_trans h (by simpa [above] using hl.1), hl.2⟩
  intro l
  induction l with
  | nil => intro _ _; rfl
  | cons c t ih =>
    intro lo h
    obtain ⟨a, b⟩ := c
    rw [tokensWf_cons, Bool.and_eq_true] at h
    rw [List.filter_cons]
    split
    · rw [tokensWf_cons, h.1, ih _ h.2]; rfl
    · exact weak _ _ _ h.1 (ih _ h.2)
/-- Clearing frames keeps the canonical form of device memory (R351). -/
theorem State.zeroFrames_wf {s : State} (h : s.mem.base.wf = true) (f : Nat → Bool) : (s.zeroFrames f).mem.base.wf = true := by
  have hs := (Memory.wf_iff _).mp (DevMem.sync_wf h)
  exact (Memory.wf_iff _).mpr ⟨cellsWf_filter _ _ _ hs.1, tokensWf_filter _ _ _ hs.2⟩
/-- Placing an instruction keeps it too. -/
theorem Memory.probe_wf {m : Memory} (h : m.wf = true) (w : Nat) : (m.probe w).wf = true := by
  unfold Memory.probe
  exact Memory.setBytes_wf _ (Memory.mark_wf (Memory.setBytes_wf _ (Memory.mark_wf (Memory.setBytes_wf _ (Memory.mark_wf
    (Memory.setBytes_wf _ (Memory.mark_wf h _ _) _) _ _) _) _ _) _) _ _) _
/-- Every memory of the machine right after reset has the canonical form. -/
theorem State.reset_memWf : State.reset.memWf = true := rfl

end Sys2Proof.Machine
end

