-- ==== Sys2Proof/Laws/State.lean ====
section
/-!
SUPPORT. What each update of a part of the state does to each field of the state, by computation.
-/
namespace Sys2Proof.Machine
open Sys2Proof

/-! ## State.modFocus -/
@[simp] theorem State.modFocus_warp (s : State) (f : Warp → Warp) : (s.modFocus f).warp = f s.warp := rfl
@[simp] theorem State.modFocus_parked (s : State) (f : Warp → Warp) : (s.modFocus f).parked = s.parked := rfl
@[simp] theorem State.modFocus_wgs (s : State) (f : Warp → Warp) : (s.modFocus f).wgs = s.wgs := rfl
@[simp] theorem State.modFocus_launches (s : State) (f : Warp → Warp) : (s.modFocus f).launches = s.launches := rfl
@[simp] theorem State.modFocus_cores (s : State) (f : Warp → Warp) : (s.modFocus f).cores = s.cores := rfl
@[simp] theorem State.modFocus_l2tlb (s : State) (f : Warp → Warp) : (s.modFocus f).l2tlb = s.l2tlb := rfl
@[simp] theorem State.modFocus_mem (s : State) (f : Warp → Warp) : (s.modFocus f).mem = s.mem := rfl
@[simp] theorem State.modFocus_l2 (s : State) (f : Warp → Warp) : (s.modFocus f).l2 = s.l2 := rfl
@[simp] theorem State.modFocus_ctxs (s : State) (f : Warp → Warp) : (s.modFocus f).ctxs = s.ctxs := rfl
@[simp] theorem State.modFocus_queues (s : State) (f : Warp → Warp) : (s.modFocus f).queues = s.queues := rfl
@[simp] theorem State.modFocus_rounds (s : State) (f : Warp → Warp) : (s.modFocus f).rounds = s.rounds := rfl
@[simp] theorem State.modFocus_copies (s : State) (f : Warp → Warp) : (s.modFocus f).copies = s.copies := rfl
@[simp] theorem State.modFocus_smaps (s : State) (f : Warp → Warp) : (s.modFocus f).smaps = s.smaps := rfl
@[simp] theorem State.modFocus_tagDones (s : State) (f : Warp → Warp) : (s.modFocus f).tagDones = s.tagDones := rfl
@[simp] theorem State.modFocus_fabric (s : State) (f : Warp → Warp) : (s.modFocus f).fabric = s.fabric := rfl
@[simp] theorem State.modFocus_svc (s : State) (f : Warp → Warp) : (s.modFocus f).svc = s.svc := rfl
@[simp] theorem State.modFocus_ctrs (s : State) (f : Warp → Warp) : (s.modFocus f).ctrs = s.ctrs := rfl
@[simp] theorem State.modFocus_tick (s : State) (f : Warp → Warp) : (s.modFocus f).tick = s.tick := rfl
@[simp] theorem State.modFocus_served (s : State) (f : Warp → Warp) : (s.modFocus f).served = s.served := rfl
@[simp] theorem State.modFocus_slack (s : State) (f : Warp → Warp) : (s.modFocus f).slack = s.slack := rfl
@[simp] theorem State.modFocus_nextId (s : State) (f : Warp → Warp) : (s.modFocus f).nextId = s.nextId := rfl
@[simp] theorem State.modFocus_inputs (s : State) (f : Warp → Warp) : (s.modFocus f).inputs = s.inputs := rfl
@[simp] theorem State.modFocus_via (s : State) (f : Warp → Warp) : (s.modFocus f).via = s.via := rfl

/-! ## State.modWg -/
@[simp] theorem State.modWg_warp (s : State) (id : Nat) (f : Wg → Wg) : (s.modWg id f).warp = s.warp := rfl
@[simp] theorem State.modWg_parked (s : State) (id : Nat) (f : Wg → Wg) : (s.modWg id f).parked = s.parked := rfl
@[simp] theorem State.modWg_wgs (s : State) (id : Nat) (f : Wg → Wg) : (s.modWg id f).wgs = s.wgs.map fun g => if g.id = id then f g else g := rfl
@[simp] theorem State.modWg_launches (s : State) (id : Nat) (f : Wg → Wg) : (s.modWg id f).launches = s.launches := rfl
@[simp] theorem State.modWg_cores (s : State) (id : Nat) (f : Wg → Wg) : (s.modWg id f).cores = s.cores := rfl
@[simp] theorem State.modWg_l2tlb (s : State) (id : Nat) (f : Wg → Wg) : (s.modWg id f).l2tlb = s.l2tlb := rfl
@[simp] theorem State.modWg_mem (s : State) (id : Nat) (f : Wg → Wg) : (s.modWg id f).mem = s.mem := rfl
@[simp] theorem State.modWg_l2 (s : State) (id : Nat) (f : Wg → Wg) : (s.modWg id f).l2 = s.l2 := rfl
@[simp] theorem State.modWg_ctxs (s : State) (id : Nat) (f : Wg → Wg) : (s.modWg id f).ctxs = s.ctxs := rfl
@[simp] theorem State.modWg_queues (s : State) (id : Nat) (f : Wg → Wg) : (s.modWg id f).queues = s.queues := rfl
@[simp] theorem State.modWg_rounds (s : State) (id : Nat) (f : Wg → Wg) : (s.modWg id f).rounds = s.rounds := rfl
@[simp] theorem State.modWg_copies (s : State) (id : Nat) (f : Wg → Wg) : (s.modWg id f).copies = s.copies := rfl
@[simp] theorem State.modWg_smaps (s : State) (id : Nat) (f : Wg → Wg) : (s.modWg id f).smaps = s.smaps := rfl
@[simp] theorem State.modWg_tagDones (s : State) (id : Nat) (f : Wg → Wg) : (s.modWg id f).tagDones = s.tagDones := rfl
@[simp] theorem State.modWg_fabric (s : State) (id : Nat) (f : Wg → Wg) : (s.modWg id f).fabric = s.fabric := rfl
@[simp] theorem State.modWg_svc (s : State) (id : Nat) (f : Wg → Wg) : (s.modWg id f).svc = s.svc := rfl
@[simp] theorem State.modWg_ctrs (s : State) (id : Nat) (f : Wg → Wg) : (s.modWg id f).ctrs = s.ctrs := rfl
@[simp] theorem State.modWg_tick (s : State) (id : Nat) (f : Wg → Wg) : (s.modWg id f).tick = s.tick := rfl
@[simp] theorem State.modWg_served (s : State) (id : Nat) (f : Wg → Wg) : (s.modWg id f).served = s.served := rfl
@[simp] theorem State.modWg_slack (s : State) (id : Nat) (f : Wg → Wg) : (s.modWg id f).slack = s.slack := rfl
@[simp] theorem State.modWg_nextId (s : State) (id : Nat) (f : Wg → Wg) : (s.modWg id f).nextId = s.nextId := rfl
@[simp] theorem State.modWg_inputs (s : State) (id : Nat) (f : Wg → Wg) : (s.modWg id f).inputs = s.inputs := rfl
@[simp] theorem State.modWg_via (s : State) (id : Nat) (f : Wg → Wg) : (s.modWg id f).via = s.via := rfl

/-! ## State.modLaunch -/
@[simp] theorem State.modLaunch_warp (s : State) (id : Nat) (f : Launch → Launch) : (s.modLaunch id f).warp = s.warp := rfl
@[simp] theorem State.modLaunch_parked (s : State) (id : Nat) (f : Launch → Launch) : (s.modLaunch id f).parked = s.parked := rfl
@[simp] theorem State.modLaunch_wgs (s : State) (id : Nat) (f : Launch → Launch) : (s.modLaunch id f).wgs = s.wgs := rfl
@[simp] theorem State.modLaunch_launches (s : State) (id : Nat) (f : Launch → Launch) : (s.modLaunch id f).launches = s.launches.map fun l => if l.id = id then f l else l := rfl
@[simp] theorem State.modLaunch_cores (s : State) (id : Nat) (f : Launch → Launch) : (s.modLaunch id f).cores = s.cores := rfl
@[simp] theorem State.modLaunch_l2tlb (s : State) (id : Nat) (f : Launch → Launch) : (s.modLaunch id f).l2tlb = s.l2tlb := rfl
@[simp] theorem State.modLaunch_mem (s : State) (id : Nat) (f : Launch → Launch) : (s.modLaunch id f).mem = s.mem := rfl
@[simp] theorem State.modLaunch_l2 (s : State) (id : Nat) (f : Launch → Launch) : (s.modLaunch id f).l2 = s.l2 := rfl
@[simp] theorem State.modLaunch_ctxs (s : State) (id : Nat) (f : Launch → Launch) : (s.modLaunch id f).ctxs = s.ctxs := rfl
@[simp] theorem State.modLaunch_queues (s : State) (id : Nat) (f : Launch → Launch) : (s.modLaunch id f).queues = s.queues := rfl
@[simp] theorem State.modLaunch_rounds (s : State) (id : Nat) (f : Launch → Launch) : (s.modLaunch id f).rounds = s.rounds := rfl
@[simp] theorem State.modLaunch_copies (s : State) (id : Nat) (f : Launch → Launch) : (s.modLaunch id f).copies = s.copies := rfl
@[simp] theorem State.modLaunch_smaps (s : State) (id : Nat) (f : Launch → Launch) : (s.modLaunch id f).smaps = s.smaps := rfl
@[simp] theorem State.modLaunch_tagDones (s : State) (id : Nat) (f : Launch → Launch) : (s.modLaunch id f).tagDones = s.tagDones := rfl
@[simp] theorem State.modLaunch_fabric (s : State) (id : Nat) (f : Launch → Launch) : (s.modLaunch id f).fabric = s.fabric := rfl
@[simp] theorem State.modLaunch_svc (s : State) (id : Nat) (f : Launch → Launch) : (s.modLaunch id f).svc = s.svc := rfl
@[simp] theorem State.modLaunch_ctrs (s : State) (id : Nat) (f : Launch → Launch) : (s.modLaunch id f).ctrs = s.ctrs := rfl
@[simp] theorem State.modLaunch_tick (s : State) (id : Nat) (f : Launch → Launch) : (s.modLaunch id f).tick = s.tick := rfl
@[simp] theorem State.modLaunch_served (s : State) (id : Nat) (f : Launch → Launch) : (s.modLaunch id f).served = s.served := rfl
@[simp] theorem State.modLaunch_slack (s : State) (id : Nat) (f : Launch → Launch) : (s.modLaunch id f).slack = s.slack := rfl
@[simp] theorem State.modLaunch_nextId (s : State) (id : Nat) (f : Launch → Launch) : (s.modLaunch id f).nextId = s.nextId := rfl
@[simp] theorem State.modLaunch_inputs (s : State) (id : Nat) (f : Launch → Launch) : (s.modLaunch id f).inputs = s.inputs := rfl
@[simp] theorem State.modLaunch_via (s : State) (id : Nat) (f : Launch → Launch) : (s.modLaunch id f).via = s.via := rfl

/-! ## State.modCtx -/
@[simp] theorem State.modCtx_warp (s : State) (t : Nat) (f : Ctx → Ctx) : (s.modCtx t f).warp = s.warp := rfl
@[simp] theorem State.modCtx_parked (s : State) (t : Nat) (f : Ctx → Ctx) : (s.modCtx t f).parked = s.parked := rfl
@[simp] theorem State.modCtx_wgs (s : State) (t : Nat) (f : Ctx → Ctx) : (s.modCtx t f).wgs = s.wgs := rfl
@[simp] theorem State.modCtx_launches (s : State) (t : Nat) (f : Ctx → Ctx) : (s.modCtx t f).launches = s.launches := rfl
@[simp] theorem State.modCtx_cores (s : State) (t : Nat) (f : Ctx → Ctx) : (s.modCtx t f).cores = s.cores := rfl
@[simp] theorem State.modCtx_l2tlb (s : State) (t : Nat) (f : Ctx → Ctx) : (s.modCtx t f).l2tlb = s.l2tlb := rfl
@[simp] theorem State.modCtx_mem (s : State) (t : Nat) (f : Ctx → Ctx) : (s.modCtx t f).mem = s.mem := rfl
@[simp] theorem State.modCtx_l2 (s : State) (t : Nat) (f : Ctx → Ctx) : (s.modCtx t f).l2 = s.l2 := rfl
@[simp] theorem State.modCtx_ctxs (s : State) (t : Nat) (f : Ctx → Ctx) : (s.modCtx t f).ctxs = updAt s.ctxs t f := rfl
@[simp] theorem State.modCtx_queues (s : State) (t : Nat) (f : Ctx → Ctx) : (s.modCtx t f).queues = s.queues := rfl
@[simp] theorem State.modCtx_rounds (s : State) (t : Nat) (f : Ctx → Ctx) : (s.modCtx t f).rounds = s.rounds := rfl
@[simp] theorem State.modCtx_copies (s : State) (t : Nat) (f : Ctx → Ctx) : (s.modCtx t f).copies = s.copies := rfl
@[simp] theorem State.modCtx_smaps (s : State) (t : Nat) (f : Ctx → Ctx) : (s.modCtx t f).smaps = s.smaps := rfl
@[simp] theorem State.modCtx_tagDones (s : State) (t : Nat) (f : Ctx → Ctx) : (s.modCtx t f).tagDones = s.tagDones := rfl
@[simp] theorem State.modCtx_fabric (s : State) (t : Nat) (f : Ctx → Ctx) : (s.modCtx t f).fabric = s.fabric := rfl
@[simp] theorem State.modCtx_svc (s : State) (t : Nat) (f : Ctx → Ctx) : (s.modCtx t f).svc = s.svc := rfl
@[simp] theorem State.modCtx_ctrs (s : State) (t : Nat) (f : Ctx → Ctx) : (s.modCtx t f).ctrs = s.ctrs := rfl
@[simp] theorem State.modCtx_tick (s : State) (t : Nat) (f : Ctx → Ctx) : (s.modCtx t f).tick = s.tick := rfl
@[simp] theorem State.modCtx_served (s : State) (t : Nat) (f : Ctx → Ctx) : (s.modCtx t f).served = s.served := rfl
@[simp] theorem State.modCtx_slack (s : State) (t : Nat) (f : Ctx → Ctx) : (s.modCtx t f).slack = s.slack := rfl
@[simp] theorem State.modCtx_nextId (s : State) (t : Nat) (f : Ctx → Ctx) : (s.modCtx t f).nextId = s.nextId := rfl
@[simp] theorem State.modCtx_inputs (s : State) (t : Nat) (f : Ctx → Ctx) : (s.modCtx t f).inputs = s.inputs := rfl
@[simp] theorem State.modCtx_via (s : State) (t : Nat) (f : Ctx → Ctx) : (s.modCtx t f).via = s.via := rfl

/-! ## State.modCore -/
@[simp] theorem State.modCore_warp (s : State) (c : Nat) (f : Core → Core) : (s.modCore c f).warp = s.warp := rfl
@[simp] theorem State.modCore_parked (s : State) (c : Nat) (f : Core → Core) : (s.modCore c f).parked = s.parked := rfl
@[simp] theorem State.modCore_wgs (s : State) (c : Nat) (f : Core → Core) : (s.modCore c f).wgs = s.wgs := rfl
@[simp] theorem State.modCore_launches (s : State) (c : Nat) (f : Core → Core) : (s.modCore c f).launches = s.launches := rfl
@[simp] theorem State.modCore_cores (s : State) (c : Nat) (f : Core → Core) : (s.modCore c f).cores = updAt s.cores c f := rfl
@[simp] theorem State.modCore_l2tlb (s : State) (c : Nat) (f : Core → Core) : (s.modCore c f).l2tlb = s.l2tlb := rfl
@[simp] theorem State.modCore_mem (s : State) (c : Nat) (f : Core → Core) : (s.modCore c f).mem = s.mem := rfl
@[simp] theorem State.modCore_l2 (s : State) (c : Nat) (f : Core → Core) : (s.modCore c f).l2 = s.l2 := rfl
@[simp] theorem State.modCore_ctxs (s : State) (c : Nat) (f : Core → Core) : (s.modCore c f).ctxs = s.ctxs := rfl
@[simp] theorem State.modCore_queues (s : State) (c : Nat) (f : Core → Core) : (s.modCore c f).queues = s.queues := rfl
@[simp] theorem State.modCore_rounds (s : State) (c : Nat) (f : Core → Core) : (s.modCore c f).rounds = s.rounds := rfl
@[simp] theorem State.modCore_copies (s : State) (c : Nat) (f : Core → Core) : (s.modCore c f).copies = s.copies := rfl
@[simp] theorem State.modCore_smaps (s : State) (c : Nat) (f : Core → Core) : (s.modCore c f).smaps = s.smaps := rfl
@[simp] theorem State.modCore_tagDones (s : State) (c : Nat) (f : Core → Core) : (s.modCore c f).tagDones = s.tagDones := rfl
@[simp] theorem State.modCore_fabric (s : State) (c : Nat) (f : Core → Core) : (s.modCore c f).fabric = s.fabric := rfl
@[simp] theorem State.modCore_svc (s : State) (c : Nat) (f : Core → Core) : (s.modCore c f).svc = s.svc := rfl
@[simp] theorem State.modCore_ctrs (s : State) (c : Nat) (f : Core → Core) : (s.modCore c f).ctrs = s.ctrs := rfl
@[simp] theorem State.modCore_tick (s : State) (c : Nat) (f : Core → Core) : (s.modCore c f).tick = s.tick := rfl
@[simp] theorem State.modCore_served (s : State) (c : Nat) (f : Core → Core) : (s.modCore c f).served = s.served := rfl
@[simp] theorem State.modCore_slack (s : State) (c : Nat) (f : Core → Core) : (s.modCore c f).slack = s.slack := rfl
@[simp] theorem State.modCore_nextId (s : State) (c : Nat) (f : Core → Core) : (s.modCore c f).nextId = s.nextId := rfl
@[simp] theorem State.modCore_inputs (s : State) (c : Nat) (f : Core → Core) : (s.modCore c f).inputs = s.inputs := rfl
@[simp] theorem State.modCore_via (s : State) (c : Nat) (f : Core → Core) : (s.modCore c f).via = s.via := rfl

/-! ## State.modFab -/
@[simp] theorem State.modFab_warp (s : State) (f : Fabric → Fabric) : (s.modFab f).warp = s.warp := rfl
@[simp] theorem State.modFab_parked (s : State) (f : Fabric → Fabric) : (s.modFab f).parked = s.parked := rfl
@[simp] theorem State.modFab_wgs (s : State) (f : Fabric → Fabric) : (s.modFab f).wgs = s.wgs := rfl
@[simp] theorem State.modFab_launches (s : State) (f : Fabric → Fabric) : (s.modFab f).launches = s.launches := rfl
@[simp] theorem State.modFab_cores (s : State) (f : Fabric → Fabric) : (s.modFab f).cores = s.cores := rfl
@[simp] theorem State.modFab_l2tlb (s : State) (f : Fabric → Fabric) : (s.modFab f).l2tlb = s.l2tlb := rfl
@[simp] theorem State.modFab_mem (s : State) (f : Fabric → Fabric) : (s.modFab f).mem = s.mem := rfl
@[simp] theorem State.modFab_l2 (s : State) (f : Fabric → Fabric) : (s.modFab f).l2 = s.l2 := rfl
@[simp] theorem State.modFab_ctxs (s : State) (f : Fabric → Fabric) : (s.modFab f).ctxs = s.ctxs := rfl
@[simp] theorem State.modFab_queues (s : State) (f : Fabric → Fabric) : (s.modFab f).queues = s.queues := rfl
@[simp] theorem State.modFab_rounds (s : State) (f : Fabric → Fabric) : (s.modFab f).rounds = s.rounds := rfl
@[simp] theorem State.modFab_copies (s : State) (f : Fabric → Fabric) : (s.modFab f).copies = s.copies := rfl
@[simp] theorem State.modFab_smaps (s : State) (f : Fabric → Fabric) : (s.modFab f).smaps = s.smaps := rfl
@[simp] theorem State.modFab_tagDones (s : State) (f : Fabric → Fabric) : (s.modFab f).tagDones = s.tagDones := rfl
@[simp] theorem State.modFab_fabric (s : State) (f : Fabric → Fabric) : (s.modFab f).fabric = f s.fabric := rfl
@[simp] theorem State.modFab_svc (s : State) (f : Fabric → Fabric) : (s.modFab f).svc = s.svc := rfl
@[simp] theorem State.modFab_ctrs (s : State) (f : Fabric → Fabric) : (s.modFab f).ctrs = s.ctrs := rfl
@[simp] theorem State.modFab_tick (s : State) (f : Fabric → Fabric) : (s.modFab f).tick = s.tick := rfl
@[simp] theorem State.modFab_served (s : State) (f : Fabric → Fabric) : (s.modFab f).served = s.served := rfl
@[simp] theorem State.modFab_slack (s : State) (f : Fabric → Fabric) : (s.modFab f).slack = s.slack := rfl
@[simp] theorem State.modFab_nextId (s : State) (f : Fabric → Fabric) : (s.modFab f).nextId = s.nextId := rfl
@[simp] theorem State.modFab_inputs (s : State) (f : Fabric → Fabric) : (s.modFab f).inputs = s.inputs := rfl
@[simp] theorem State.modFab_via (s : State) (f : Fabric → Fabric) : (s.modFab f).via = s.via := rfl

/-! ## State.modMem -/
@[simp] theorem State.modMem_warp (s : State) (f : DevMem → DevMem) : (s.modMem f).warp = s.warp := rfl
@[simp] theorem State.modMem_parked (s : State) (f : DevMem → DevMem) : (s.modMem f).parked = s.parked := rfl
@[simp] theorem State.modMem_wgs (s : State) (f : DevMem → DevMem) : (s.modMem f).wgs = s.wgs := rfl
@[simp] theorem State.modMem_launches (s : State) (f : DevMem → DevMem) : (s.modMem f).launches = s.launches := rfl
@[simp] theorem State.modMem_cores (s : State) (f : DevMem → DevMem) : (s.modMem f).cores = s.cores := rfl
@[simp] theorem State.modMem_l2tlb (s : State) (f : DevMem → DevMem) : (s.modMem f).l2tlb = s.l2tlb := rfl
@[simp] theorem State.modMem_mem (s : State) (f : DevMem → DevMem) : (s.modMem f).mem = f s.mem := rfl
@[simp] theorem State.modMem_l2 (s : State) (f : DevMem → DevMem) : (s.modMem f).l2 = s.l2 := rfl
@[simp] theorem State.modMem_ctxs (s : State) (f : DevMem → DevMem) : (s.modMem f).ctxs = s.ctxs := rfl
@[simp] theorem State.modMem_queues (s : State) (f : DevMem → DevMem) : (s.modMem f).queues = s.queues := rfl
@[simp] theorem State.modMem_rounds (s : State) (f : DevMem → DevMem) : (s.modMem f).rounds = s.rounds := rfl
@[simp] theorem State.modMem_copies (s : State) (f : DevMem → DevMem) : (s.modMem f).copies = s.copies := rfl
@[simp] theorem State.modMem_smaps (s : State) (f : DevMem → DevMem) : (s.modMem f).smaps = s.smaps := rfl
@[simp] theorem State.modMem_tagDones (s : State) (f : DevMem → DevMem) : (s.modMem f).tagDones = s.tagDones := rfl
@[simp] theorem State.modMem_fabric (s : State) (f : DevMem → DevMem) : (s.modMem f).fabric = s.fabric := rfl
@[simp] theorem State.modMem_svc (s : State) (f : DevMem → DevMem) : (s.modMem f).svc = s.svc := rfl
@[simp] theorem State.modMem_ctrs (s : State) (f : DevMem → DevMem) : (s.modMem f).ctrs = s.ctrs := rfl
@[simp] theorem State.modMem_tick (s : State) (f : DevMem → DevMem) : (s.modMem f).tick = s.tick := rfl
@[simp] theorem State.modMem_served (s : State) (f : DevMem → DevMem) : (s.modMem f).served = s.served := rfl
@[simp] theorem State.modMem_slack (s : State) (f : DevMem → DevMem) : (s.modMem f).slack = s.slack := rfl
@[simp] theorem State.modMem_nextId (s : State) (f : DevMem → DevMem) : (s.modMem f).nextId = s.nextId := rfl
@[simp] theorem State.modMem_inputs (s : State) (f : DevMem → DevMem) : (s.modMem f).inputs = s.inputs := rfl
@[simp] theorem State.modMem_via (s : State) (f : DevMem → DevMem) : (s.modMem f).via = s.via := rfl

/-! ## State.modSvc -/
@[simp] theorem State.modSvc_warp (s : State) (f : Service → Service) : (s.modSvc f).warp = s.warp := rfl
@[simp] theorem State.modSvc_parked (s : State) (f : Service → Service) : (s.modSvc f).parked = s.parked := rfl
@[simp] theorem State.modSvc_wgs (s : State) (f : Service → Service) : (s.modSvc f).wgs = s.wgs := rfl
@[simp] theorem State.modSvc_launches (s : State) (f : Service → Service) : (s.modSvc f).launches = s.launches := rfl
@[simp] theorem State.modSvc_cores (s : State) (f : Service → Service) : (s.modSvc f).cores = s.cores := rfl
@[simp] theorem State.modSvc_l2tlb (s : State) (f : Service → Service) : (s.modSvc f).l2tlb = s.l2tlb := rfl
@[simp] theorem State.modSvc_mem (s : State) (f : Service → Service) : (s.modSvc f).mem = s.mem := rfl
@[simp] theorem State.modSvc_l2 (s : State) (f : Service → Service) : (s.modSvc f).l2 = s.l2 := rfl
@[simp] theorem State.modSvc_ctxs (s : State) (f : Service → Service) : (s.modSvc f).ctxs = s.ctxs := rfl
@[simp] theorem State.modSvc_queues (s : State) (f : Service → Service) : (s.modSvc f).queues = s.queues := rfl
@[simp] theorem State.modSvc_rounds (s : State) (f : Service → Service) : (s.modSvc f).rounds = s.rounds := rfl
@[simp] theorem State.modSvc_copies (s : State) (f : Service → Service) : (s.modSvc f).copies = s.copies := rfl
@[simp] theorem State.modSvc_smaps (s : State) (f : Service → Service) : (s.modSvc f).smaps = s.smaps := rfl
@[simp] theorem State.modSvc_tagDones (s : State) (f : Service → Service) : (s.modSvc f).tagDones = s.tagDones := rfl
@[simp] theorem State.modSvc_fabric (s : State) (f : Service → Service) : (s.modSvc f).fabric = s.fabric := rfl
@[simp] theorem State.modSvc_svc (s : State) (f : Service → Service) : (s.modSvc f).svc = f s.svc := rfl
@[simp] theorem State.modSvc_ctrs (s : State) (f : Service → Service) : (s.modSvc f).ctrs = s.ctrs := rfl
@[simp] theorem State.modSvc_tick (s : State) (f : Service → Service) : (s.modSvc f).tick = s.tick := rfl
@[simp] theorem State.modSvc_served (s : State) (f : Service → Service) : (s.modSvc f).served = s.served := rfl
@[simp] theorem State.modSvc_slack (s : State) (f : Service → Service) : (s.modSvc f).slack = s.slack := rfl
@[simp] theorem State.modSvc_nextId (s : State) (f : Service → Service) : (s.modSvc f).nextId = s.nextId := rfl
@[simp] theorem State.modSvc_inputs (s : State) (f : Service → Service) : (s.modSvc f).inputs = s.inputs := rfl
@[simp] theorem State.modSvc_via (s : State) (f : Service → Service) : (s.modSvc f).via = s.via := rfl

/-! ## State.modDie -/
@[simp] theorem State.modDie_warp (s : State) (d : Nat) (f : DieHealth → DieHealth) : (s.modDie d f).warp = s.warp := rfl
@[simp] theorem State.modDie_parked (s : State) (d : Nat) (f : DieHealth → DieHealth) : (s.modDie d f).parked = s.parked := rfl
@[simp] theorem State.modDie_wgs (s : State) (d : Nat) (f : DieHealth → DieHealth) : (s.modDie d f).wgs = s.wgs := rfl
@[simp] theorem State.modDie_launches (s : State) (d : Nat) (f : DieHealth → DieHealth) : (s.modDie d f).launches = s.launches := rfl
@[simp] theorem State.modDie_cores (s : State) (d : Nat) (f : DieHealth → DieHealth) : (s.modDie d f).cores = s.cores := rfl
@[simp] theorem State.modDie_l2tlb (s : State) (d : Nat) (f : DieHealth → DieHealth) : (s.modDie d f).l2tlb = s.l2tlb := rfl
@[simp] theorem State.modDie_mem (s : State) (d : Nat) (f : DieHealth → DieHealth) : (s.modDie d f).mem = s.mem := rfl
@[simp] theorem State.modDie_l2 (s : State) (d : Nat) (f : DieHealth → DieHealth) : (s.modDie d f).l2 = s.l2 := rfl
@[simp] theorem State.modDie_ctxs (s : State) (d : Nat) (f : DieHealth → DieHealth) : (s.modDie d f).ctxs = s.ctxs := rfl
@[simp] theorem State.modDie_queues (s : State) (d : Nat) (f : DieHealth → DieHealth) : (s.modDie d f).queues = s.queues := rfl
@[simp] theorem State.modDie_rounds (s : State) (d : Nat) (f : DieHealth → DieHealth) : (s.modDie d f).rounds = s.rounds := rfl
@[simp] theorem State.modDie_copies (s : State) (d : Nat) (f : DieHealth → DieHealth) : (s.modDie d f).copies = s.copies := rfl
@[simp] theorem State.modDie_smaps (s : State) (d : Nat) (f : DieHealth → DieHealth) : (s.modDie d f).smaps = s.smaps := rfl
@[simp] theorem State.modDie_tagDones (s : State) (d : Nat) (f : DieHealth → DieHealth) : (s.modDie d f).tagDones = s.tagDones := rfl
@[simp] theorem State.modDie_fabric (s : State) (d : Nat) (f : DieHealth → DieHealth) : (s.modDie d f).fabric = s.fabric := rfl
@[simp] theorem State.modDie_svc (s : State) (d : Nat) (f : DieHealth → DieHealth) : (s.modDie d f).svc = { s.svc with dies := updAt s.svc.dies d f } := rfl
@[simp] theorem State.modDie_ctrs (s : State) (d : Nat) (f : DieHealth → DieHealth) : (s.modDie d f).ctrs = s.ctrs := rfl
@[simp] theorem State.modDie_tick (s : State) (d : Nat) (f : DieHealth → DieHealth) : (s.modDie d f).tick = s.tick := rfl
@[simp] theorem State.modDie_served (s : State) (d : Nat) (f : DieHealth → DieHealth) : (s.modDie d f).served = s.served := rfl
@[simp] theorem State.modDie_slack (s : State) (d : Nat) (f : DieHealth → DieHealth) : (s.modDie d f).slack = s.slack := rfl
@[simp] theorem State.modDie_nextId (s : State) (d : Nat) (f : DieHealth → DieHealth) : (s.modDie d f).nextId = s.nextId := rfl
@[simp] theorem State.modDie_inputs (s : State) (d : Nat) (f : DieHealth → DieHealth) : (s.modDie d f).inputs = s.inputs := rfl
@[simp] theorem State.modDie_via (s : State) (d : Nat) (f : DieHealth → DieHealth) : (s.modDie d f).via = s.via := rfl

/-! ## State.fresh -/
@[simp] theorem State.fresh_warp (s : State) : s.fresh.1.warp = s.warp := rfl
@[simp] theorem State.fresh_parked (s : State) : s.fresh.1.parked = s.parked := rfl
@[simp] theorem State.fresh_wgs (s : State) : s.fresh.1.wgs = s.wgs := rfl
@[simp] theorem State.fresh_launches (s : State) : s.fresh.1.launches = s.launches := rfl
@[simp] theorem State.fresh_cores (s : State) : s.fresh.1.cores = s.cores := rfl
@[simp] theorem State.fresh_l2tlb (s : State) : s.fresh.1.l2tlb = s.l2tlb := rfl
@[simp] theorem State.fresh_mem (s : State) : s.fresh.1.mem = s.mem := rfl
@[simp] theorem State.fresh_l2 (s : State) : s.fresh.1.l2 = s.l2 := rfl
@[simp] theorem State.fresh_ctxs (s : State) : s.fresh.1.ctxs = s.ctxs := rfl
@[simp] theorem State.fresh_queues (s : State) : s.fresh.1.queues = s.queues := rfl
@[simp] theorem State.fresh_rounds (s : State) : s.fresh.1.rounds = s.rounds := rfl
@[simp] theorem State.fresh_copies (s : State) : s.fresh.1.copies = s.copies := rfl
@[simp] theorem State.fresh_smaps (s : State) : s.fresh.1.smaps = s.smaps := rfl
@[simp] theorem State.fresh_tagDones (s : State) : s.fresh.1.tagDones = s.tagDones := rfl
@[simp] theorem State.fresh_fabric (s : State) : s.fresh.1.fabric = s.fabric := rfl
@[simp] theorem State.fresh_svc (s : State) : s.fresh.1.svc = s.svc := rfl
@[simp] theorem State.fresh_ctrs (s : State) : s.fresh.1.ctrs = s.ctrs := rfl
@[simp] theorem State.fresh_tick (s : State) : s.fresh.1.tick = s.tick := rfl
@[simp] theorem State.fresh_served (s : State) : s.fresh.1.served = s.served := rfl
@[simp] theorem State.fresh_slack (s : State) : s.fresh.1.slack = s.slack := rfl
@[simp] theorem State.fresh_nextId (s : State) : s.fresh.1.nextId = s.nextId + 1 := rfl
@[simp] theorem State.fresh_inputs (s : State) : s.fresh.1.inputs = s.inputs := rfl
@[simp] theorem State.fresh_via (s : State) : s.fresh.1.via = s.via := rfl
@[simp] theorem State.fresh_number (s : State) : s.fresh.2 = s.nextId := rfl

/-! ## The lines of L2 -/
@[simp] theorem State.fillL2_l2 (s : State) (tag mt pa : Nat) : (s.fillL2 tag mt pa).l2 = s.filledL2 tag mt pa := rfl
@[simp] theorem State.fillL2_warp (s : State) (tag mt pa : Nat) : (s.fillL2 tag mt pa).warp = s.warp := rfl
@[simp] theorem State.fillL2_parked (s : State) (tag mt pa : Nat) : (s.fillL2 tag mt pa).parked = s.parked := rfl
@[simp] theorem State.fillL2_wgs (s : State) (tag mt pa : Nat) : (s.fillL2 tag mt pa).wgs = s.wgs := rfl
@[simp] theorem State.fillL2_launches (s : State) (tag mt pa : Nat) : (s.fillL2 tag mt pa).launches = s.launches := rfl
@[simp] theorem State.fillL2_cores (s : State) (tag mt pa : Nat) : (s.fillL2 tag mt pa).cores = s.cores := rfl
@[simp] theorem State.fillL2_l2tlb (s : State) (tag mt pa : Nat) : (s.fillL2 tag mt pa).l2tlb = s.l2tlb := rfl
@[simp] theorem State.fillL2_mem (s : State) (tag mt pa : Nat) : (s.fillL2 tag mt pa).mem = s.mem := rfl
@[simp] theorem State.fillL2_ctxs (s : State) (tag mt pa : Nat) : (s.fillL2 tag mt pa).ctxs = s.ctxs := rfl
@[simp] theorem State.fillL2_queues (s : State) (tag mt pa : Nat) : (s.fillL2 tag mt pa).queues = s.queues := rfl
@[simp] theorem State.fillL2_rounds (s : State) (tag mt pa : Nat) : (s.fillL2 tag mt pa).rounds = s.rounds := rfl
@[simp] theorem State.fillL2_copies (s : State) (tag mt pa : Nat) : (s.fillL2 tag mt pa).copies = s.copies := rfl
@[simp] theorem State.fillL2_smaps (s : State) (tag mt pa : Nat) : (s.fillL2 tag mt pa).smaps = s.smaps := rfl
@[simp] theorem State.fillL2_tagDones (s : State) (tag mt pa : Nat) : (s.fillL2 tag mt pa).tagDones = s.tagDones := rfl
@[simp] theorem State.fillL2_fabric (s : State) (tag mt pa : Nat) : (s.fillL2 tag mt pa).fabric = s.fabric := rfl
@[simp] theorem State.fillL2_svc (s : State) (tag mt pa : Nat) : (s.fillL2 tag mt pa).svc = s.svc := rfl
@[simp] theorem State.fillL2_ctrs (s : State) (tag mt pa : Nat) : (s.fillL2 tag mt pa).ctrs = s.ctrs := rfl
@[simp] theorem State.fillL2_tick (s : State) (tag mt pa : Nat) : (s.fillL2 tag mt pa).tick = s.tick := rfl
@[simp] theorem State.fillL2_served (s : State) (tag mt pa : Nat) : (s.fillL2 tag mt pa).served = s.served := rfl
@[simp] theorem State.fillL2_slack (s : State) (tag mt pa : Nat) : (s.fillL2 tag mt pa).slack = s.slack := rfl
@[simp] theorem State.fillL2_nextId (s : State) (tag mt pa : Nat) : (s.fillL2 tag mt pa).nextId = s.nextId := rfl
@[simp] theorem State.fillL2_inputs (s : State) (tag mt pa : Nat) : (s.fillL2 tag mt pa).inputs = s.inputs := rfl
@[simp] theorem State.fillL2_via (s : State) (tag mt pa : Nat) : (s.fillL2 tag mt pa).via = s.via := rfl
@[simp] theorem State.dropL2_l2 (s : State) (f : Nat → Bool) : (s.dropL2 f).l2 = s.l2.filter fun l => !f l.line := rfl
@[simp] theorem State.dropL2_warp (s : State) (f : Nat → Bool) : (s.dropL2 f).warp = s.warp := rfl
@[simp] theorem State.dropL2_parked (s : State) (f : Nat → Bool) : (s.dropL2 f).parked = s.parked := rfl
@[simp] theorem State.dropL2_wgs (s : State) (f : Nat → Bool) : (s.dropL2 f).wgs = s.wgs := rfl
@[simp] theorem State.dropL2_launches (s : State) (f : Nat → Bool) : (s.dropL2 f).launches = s.launches := rfl
@[simp] theorem State.dropL2_cores (s : State) (f : Nat → Bool) : (s.dropL2 f).cores = s.cores := rfl
@[simp] theorem State.dropL2_l2tlb (s : State) (f : Nat → Bool) : (s.dropL2 f).l2tlb = s.l2tlb := rfl
@[simp] theorem State.dropL2_mem (s : State) (f : Nat → Bool) : (s.dropL2 f).mem = s.mem := rfl
@[simp] theorem State.dropL2_ctxs (s : State) (f : Nat → Bool) : (s.dropL2 f).ctxs = s.ctxs := rfl
@[simp] theorem State.dropL2_queues (s : State) (f : Nat → Bool) : (s.dropL2 f).queues = s.queues := rfl
@[simp] theorem State.dropL2_rounds (s : State) (f : Nat → Bool) : (s.dropL2 f).rounds = s.rounds := rfl
@[simp] theorem State.dropL2_copies (s : State) (f : Nat → Bool) : (s.dropL2 f).copies = s.copies := rfl
@[simp] theorem State.dropL2_smaps (s : State) (f : Nat → Bool) : (s.dropL2 f).smaps = s.smaps := rfl
@[simp] theorem State.dropL2_tagDones (s : State) (f : Nat → Bool) : (s.dropL2 f).tagDones = s.tagDones := rfl
@[simp] theorem State.dropL2_fabric (s : State) (f : Nat → Bool) : (s.dropL2 f).fabric = s.fabric := rfl
@[simp] theorem State.dropL2_svc (s : State) (f : Nat → Bool) : (s.dropL2 f).svc = s.svc := rfl
@[simp] theorem State.dropL2_ctrs (s : State) (f : Nat → Bool) : (s.dropL2 f).ctrs = s.ctrs := rfl
@[simp] theorem State.dropL2_tick (s : State) (f : Nat → Bool) : (s.dropL2 f).tick = s.tick := rfl
@[simp] theorem State.dropL2_served (s : State) (f : Nat → Bool) : (s.dropL2 f).served = s.served := rfl
@[simp] theorem State.dropL2_slack (s : State) (f : Nat → Bool) : (s.dropL2 f).slack = s.slack := rfl
@[simp] theorem State.dropL2_nextId (s : State) (f : Nat → Bool) : (s.dropL2 f).nextId = s.nextId := rfl
@[simp] theorem State.dropL2_inputs (s : State) (f : Nat → Bool) : (s.dropL2 f).inputs = s.inputs := rfl
@[simp] theorem State.dropL2_via (s : State) (f : Nat → Bool) : (s.dropL2 f).via = s.via := rfl

/-! ## Time -/
@[simp] theorem State.turn_warp (s : State) : s.turn.warp = s.warp := rfl
@[simp] theorem State.turn_parked (s : State) : s.turn.parked = s.parked := rfl
@[simp] theorem State.turn_wgs (s : State) : s.turn.wgs = s.wgs := rfl
@[simp] theorem State.turn_launches (s : State) : s.turn.launches = s.launches := rfl
@[simp] theorem State.turn_cores (s : State) : s.turn.cores = s.cores := rfl
@[simp] theorem State.turn_l2tlb (s : State) : s.turn.l2tlb = s.l2tlb := rfl
@[simp] theorem State.turn_mem (s : State) : s.turn.mem = s.mem := rfl
@[simp] theorem State.turn_l2 (s : State) : s.turn.l2 = s.l2 := rfl
@[simp] theorem State.turn_ctxs (s : State) : s.turn.ctxs = s.ctxs := rfl
@[simp] theorem State.turn_queues (s : State) : s.turn.queues = s.queues := rfl
@[simp] theorem State.turn_rounds (s : State) : s.turn.rounds = s.rounds := rfl
@[simp] theorem State.turn_copies (s : State) : s.turn.copies = s.copies := rfl
@[simp] theorem State.turn_smaps (s : State) : s.turn.smaps = s.smaps := rfl
@[simp] theorem State.turn_tagDones (s : State) : s.turn.tagDones = s.tagDones := rfl
@[simp] theorem State.turn_fabric (s : State) : s.turn.fabric = s.fabric := rfl
@[simp] theorem State.turn_svc (s : State) : s.turn.svc = s.svc := rfl
@[simp] theorem State.turn_ctrs (s : State) : s.turn.ctrs = (List.range 5).map fun d => s.ctr d + Config.cycles s.tick d := rfl
@[simp] theorem State.turn_tick (s : State) : s.turn.tick = s.tick + 1 := rfl
@[simp] theorem State.turn_served (s : State) : s.turn.served = s.served := rfl
@[simp] theorem State.turn_slack (s : State) : s.turn.slack = s.slack := rfl
@[simp] theorem State.turn_nextId (s : State) : s.turn.nextId = s.nextId := rfl
@[simp] theorem State.turn_inputs (s : State) : s.turn.inputs = s.inputs := rfl
@[simp] theorem State.turn_via (s : State) : s.turn.via = s.via := rfl

/-! ## Warp.setPcs -/
@[simp] theorem Warp.setPcs_ref (w : Warp) (act : Mask) (t : Nat → DWord) : (w.setPcs act t).ref = w.ref := rfl
@[simp] theorem Warp.setPcs_status (w : Warp) (act : Mask) (t : Nat → DWord) : (w.setPcs act t).status = w.status := rfl
@[simp] theorem Warp.setPcs_pcs (w : Warp) (act : Mask) (t : Nat → DWord) : (w.setPcs act t).pcs = lanes32 fun l => if act.has l then t l else w.pcOf l := rfl
@[simp] theorem Warp.setPcs_exited (w : Warp) (act : Mask) (t : Nat → DWord) : (w.setPcs act t).exited = w.exited := rfl
@[simp] theorem Warp.setPcs_cab (w : Warp) (act : Mask) (t : Nat → DWord) : (w.setPcs act t).cab = w.cab := rfl
@[simp] theorem Warp.setPcs_drawer (w : Warp) (act : Mask) (t : Nat → DWord) : (w.setPcs act t).drawer = w.drawer := rfl
@[simp] theorem Warp.setPcs_latch (w : Warp) (act : Mask) (t : Nat → DWord) : (w.setPcs act t).latch = w.latch := rfl
@[simp] theorem Warp.setPcs_hints (w : Warp) (act : Mask) (t : Nat → DWord) : (w.setPcs act t).hints = w.hints := rfl
@[simp] theorem Warp.setPcs_tsize (w : Warp) (act : Mask) (t : Nat → DWord) : (w.setPcs act t).tsize = w.tsize := rfl
@[simp] theorem Warp.setPcs_fpmode (w : Warp) (act : Mask) (t : Nat → DWord) : (w.setPcs act t).fpmode = w.fpmode := rfl
@[simp] theorem Warp.setPcs_fpstat (w : Warp) (act : Mask) (t : Nat → DWord) : (w.setPcs act t).fpstat = w.fpstat := rfl
@[simp] theorem Warp.setPcs_chan (w : Warp) (act : Mask) (t : Nat → DWord) : (w.setPcs act t).chan = w.chan := rfl
@[simp] theorem Warp.setPcs_region (w : Warp) (act : Mask) (t : Nat → DWord) : (w.setPcs act t).region = w.region := rfl
@[simp] theorem Warp.setPcs_spill (w : Warp) (act : Mask) (t : Nat → DWord) : (w.setPcs act t).spill = w.spill := rfl
@[simp] theorem Warp.setPcs_divCount (w : Warp) (act : Mask) (t : Nat → DWord) : (w.setPcs act t).divCount = w.divCount := rfl
@[simp] theorem Warp.setPcs_switchMark (w : Warp) (act : Mask) (t : Nat → DWord) : (w.setPcs act t).switchMark = w.switchMark := rfl
@[simp] theorem Warp.setPcs_switched (w : Warp) (act : Mask) (t : Nat → DWord) : (w.setPcs act t).switched = w.switched := rfl
@[simp] theorem Warp.setPcs_retStack (w : Warp) (act : Mask) (t : Nat → DWord) : (w.setPcs act t).retStack = w.retStack := rfl
@[simp] theorem Warp.setPcs_perturb (w : Warp) (act : Mask) (t : Nat → DWord) : (w.setPcs act t).perturb = w.perturb := rfl
@[simp] theorem Warp.setPcs_wait (w : Warp) (act : Mask) (t : Nat → DWord) : (w.setPcs act t).wait = w.wait := rfl
@[simp] theorem Warp.setPcs_waitv (w : Warp) (act : Mask) (t : Nat → DWord) : (w.setPcs act t).waitv = w.waitv := rfl
@[simp] theorem Warp.setPcs_waitWord (w : Warp) (act : Mask) (t : Nat → DWord) : (w.setPcs act t).waitWord = w.waitWord := rfl
@[simp] theorem Warp.setPcs_waitMask (w : Warp) (act : Mask) (t : Nat → DWord) : (w.setPcs act t).waitMask = w.waitMask := rfl
@[simp] theorem Warp.setPcs_pend (w : Warp) (act : Mask) (t : Nat → DWord) : (w.setPcs act t).pend = w.pend := rfl
@[simp] theorem Warp.setPcs_held (w : Warp) (act : Mask) (t : Nat → DWord) : (w.setPcs act t).held = w.held := rfl
@[simp] theorem Warp.setPcs_late (w : Warp) (act : Mask) (t : Nat → DWord) : (w.setPcs act t).late = w.late := rfl
@[simp] theorem Warp.setPcs_fetchHold (w : Warp) (act : Mask) (t : Nat → DWord) : (w.setPcs act t).fetchHold = w.fetchHold := rfl
@[simp] theorem Warp.setPcs_ir (w : Warp) (act : Mask) (t : Nat → DWord) : (w.setPcs act t).ir = w.ir := rfl
@[simp] theorem Warp.setPcs_isTask (w : Warp) (act : Mask) (t : Nat → DWord) : (w.setPcs act t).isTask = w.isTask := rfl
@[simp] theorem Warp.setPcs_task (w : Warp) (act : Mask) (t : Nat → DWord) : (w.setPcs act t).task = w.task := rfl
@[simp] theorem Warp.setPcs_joinAt (w : Warp) (act : Mask) (t : Nat → DWord) : (w.setPcs act t).joinAt = w.joinAt := rfl
@[simp] theorem Warp.setPcs_yieldCount (w : Warp) (act : Mask) (t : Nat → DWord) : (w.setPcs act t).yieldCount = w.yieldCount := rfl
@[simp] theorem Warp.setPcs_atPoint (w : Warp) (act : Mask) (t : Nat → DWord) : (w.setPcs act t).atPoint = w.atPoint := rfl
@[simp] theorem Warp.setPcs_quad (w : Warp) (act : Mask) (t : Nat → DWord) : (w.setPcs act t).quad = w.quad := rfl
@[simp] theorem Warp.setPcs_n (w : Warp) (act : Mask) (t : Nat → DWord) : (w.setPcs act t).n = w.n := rfl
@[simp] theorem Warp.setPcs_gmax (w : Warp) (act : Mask) (t : Nat → DWord) : (w.setPcs act t).gmax = w.gmax := rfl
@[simp] theorem Warp.setPcs_privw (w : Warp) (act : Mask) (t : Nat → DWord) : (w.setPcs act t).privw = w.privw := rfl
@[simp] theorem Warp.setPcs_spw (w : Warp) (act : Mask) (t : Nat → DWord) : (w.setPcs act t).spw = w.spw := rfl
@[simp] theorem Warp.setPcs_places (w : Warp) (act : Mask) (t : Nat → DWord) : (w.setPcs act t).places = w.places := rfl
@[simp] theorem Warp.setPcs_privBase (w : Warp) (act : Mask) (t : Nat → DWord) : (w.setPcs act t).privBase = w.privBase := rfl

end Sys2Proof.Machine
end

