-- ==== Sys2Proof/Laws/Ops.lean ====
section
/-!
SUPPORT. What the shared operations that write memory and form tokens leave alone: the issuing warp, and the canonical form of every memory.
-/
namespace Sys2Proof.Machine
open Sys2Proof

/-! ## The canonical form -/

theorem State.memWf_iff (s : State) : s.memWf = true ↔ s.mem.base.wf = true ∧ ∀ g ∈ s.wgs, g.memWf = true := by simp [State.memWf]
theorem Wg.memWf_iff (g : Wg) : g.memWf = true ↔ g.stash.wf = true ∧ ∀ m ∈ g.wslot, m.wf = true := by simp [Wg.memWf]
/-- A change of device memory that keeps its form keeps the whole. -/
theorem State.modMem_memWf {s : State} (h : s.memWf = true) (f : DevMem → DevMem) (hf : s.mem.base.wf = true → (f s.mem).base.wf = true) :
    (s.modMem f).memWf = true :=
  (State.memWf_iff _).mpr ⟨hf ((State.memWf_iff s).mp h).1, ((State.memWf_iff s).mp h).2⟩
/-- A change of a workgroup that keeps its form keeps the whole. -/
theorem State.modWg_memWf {s : State} (h : s.memWf = true) (id : Nat) (f : Wg → Wg) (hf : ∀ g, g.memWf = true → (f g).memWf = true) :
    (s.modWg id f).memWf = true := by
  refine (State.memWf_iff _).mpr ⟨((State.memWf_iff s).mp h).1, ?_⟩
  intro g hg
  obtain ⟨g0, h0, e⟩ := List.mem_map.mp hg
  have := ((State.memWf_iff s).mp h).2 g0 h0
  rw [← e]
  split
  · exact hf g0 this
  · exact this
/-- A change of anything else keeps it. -/
theorem State.memWf_congr {s t : State} (hm : t.mem = s.mem) (hg : t.wgs = s.wgs) : t.memWf = s.memWf := by simp [State.memWf, hm, hg]

theorem State.modCtx_memWf {s : State} (h : s.memWf = true) (t : Nat) (f : Ctx → Ctx) : (s.modCtx t f).memWf = true := h

/-! ## One operation at a time -/

theorem State.fillLine_memWf {s : State} (h : s.memWf = true) (wg e line tag : Nat) : (s.fillLine wg e line tag).memWf = true := by
  unfold State.fillLine
  split
  · exact h
  · split
    · exact h
    · split
      · exact h
      · refine State.modWg_memWf (State.modMem_memWf h _ fun k => k) _ _ ?_
        intro g hg
        rw [Wg.memWf_iff] at hg ⊢
        exact ⟨copyLine_wf _ _ hg.1 _, hg.2⟩
theorem State.fillLine_warp (s : State) (wg e line tag : Nat) : (s.fillLine wg e line tag).warp = s.warp := by
  unfold State.fillLine
  split
  · rfl
  · split
    · rfl
    · split <;> rfl
theorem markDirty_memWf (g : Wg) (tag off : Nat) : (markDirty g tag off).memWf = g.memWf := rfl
theorem State.backInvalidate_memWf {s : State} (h : s.memWf = true) (pa : Nat) : (s.backInvalidate pa).memWf = true := by
  unfold State.backInvalidate; extract_lets line
  split
  · exact (State.memWf_congr rfl rfl).trans h
  · exact h
theorem State.backInvalidate_warp (s : State) (pa : Nat) : (s.backInvalidate pa).warp = s.warp := by
  unfold State.backInvalidate; extract_lets line
  split <;> rfl
/-- A physical write keeps the canonical form of every memory, and the issuing warp. -/
theorem State.rawWrite_memWf {s : State} (h : s.memWf = true) (die tag : Nat) (w : SectorWrite) : (s.rawWrite die tag w).memWf = true := by
  unfold State.rawWrite
  split
  · refine State.modWg_memWf (State.backInvalidate_memWf (State.fillLine_memWf (State.modMem_memWf h _ DevMem.sync_wf) _ _ _ _) _) _ _ ?_
    intro g hg
    rw [markDirty_memWf]
    rw [Wg.memWf_iff] at hg ⊢
    exact ⟨Memory.apply_wf hg.1 _, hg.2⟩
  · exact State.modMem_memWf (State.backInvalidate_memWf h _) _ fun k => k
theorem State.rawWrite_warp (s : State) (die tag : Nat) (w : SectorWrite) : (s.rawWrite die tag w).warp = s.warp := by
  unfold State.rawWrite
  split
  · simp only [State.modWg_warp]
    rw [State.backInvalidate_warp, State.fillLine_warp, State.modMem_warp]
  · rw [State.modMem_warp, State.backInvalidate_warp]
theorem State.deviceWrite_memWf {s : State} (h : s.memWf = true) (tag pa : Nat) (bs : List Byte) : (s.deviceWrite tag pa bs).memWf = true := by
  refine State.modMem_memWf ?_ _ DevMem.sync_wf
  generalize sectorRun 4 pa bs = ws
  induction ws generalizing s with
  | nil => exact h
  | cons w ws ih => rw [List.foldl_cons]; exact ih (State.rawWrite_memWf h _ _ _)
theorem State.deviceWrite_warp (s : State) (tag pa : Nat) (bs : List Byte) : (s.deviceWrite tag pa bs).warp = s.warp := by
  unfold State.deviceWrite
  rw [State.modMem_warp]
  generalize sectorRun 4 pa bs = ws
  induction ws generalizing s with
  | nil => rfl
  | cons w ws ih => rw [List.foldl_cons, ih, State.rawWrite_warp]
theorem State.pushRecord_memWf {s : State} (h : s.memWf = true) (tag : Nat) (bs : List Byte) : (s.pushRecord tag bs).memWf = true := by
  unfold State.pushRecord; extract_lets c lose
  split
  · exact h
  · split
    · exact h
    · split
      · exact (State.memWf_congr rfl rfl).trans (State.deviceWrite_memWf h _ _ _)
      · split <;> exact h
      · exact h
theorem State.pushRecord_warp (s : State) (tag : Nat) (bs : List Byte) : (s.pushRecord tag bs).warp = s.warp := by
  unfold State.pushRecord; extract_lets c lose
  split
  · rfl
  · split
    · rfl
    · split
      · exact State.deviceWrite_warp _ _ _ _
      · split <;> rfl
      · rfl
theorem State.svcReq_memWf {s : State} (h : s.memWf = true) (tag space : Nat) (off : DWord) (o : Origin) : (s.svcReq tag space off o).1.memWf = true := by
  unfold State.svcReq; extract_lets
  split
  · exact h
  · exact State.pushRecord_memWf (State.modCtx_memWf h _ _) _ _
theorem State.svcReq_warp (s : State) (tag space : Nat) (off : DWord) (o : Origin) : (s.svcReq tag space off o).1.warp = s.warp := by
  unfold State.svcReq; extract_lets
  split
  · rfl
  · exact State.pushRecord_warp _ _ _
/-- Forming a token keeps the canonical form of every memory, and the issuing warp. -/
theorem State.mkToken_memWf {s : State} (h : s.memWf = true) (tag : Nat) (c : Cause) (o : Origin) : (s.mkToken tag c o).1.memWf = true := by
  unfold State.mkToken
  split
  · exact h
  extract_lets k seq u tok off d
  have hu : u.memWf = true := State.modCtx_memWf h _ _
  have hd : d.memWf = true := State.modCtx_memWf hu _ _
  split
  · exact hu
  · split
    · exact State.deviceWrite_memWf hu _ _ _
    · split
      · exact State.svcReq_memWf hd _ _ _ _
      · exact hd
theorem State.mkToken_warp (s : State) (tag : Nat) (c : Cause) (o : Origin) : (s.mkToken tag c o).1.warp = s.warp := by
  unfold State.mkToken
  split
  · rfl
  extract_lets k seq u tok off d
  have hd : d.warp = s.warp := rfl
  split
  · rfl
  · split
    · exact State.deviceWrite_warp u _ _ _
    · split
      · exact (State.svcReq_warp d _ _ _ _).trans hd
      · exact hd
/-- The token of a cause names it (R372). -/
theorem tokenBits_cause (c n : Nat) (h : c < 64) : tokenCause (tokenBits c n) = c := by
  simp only [tokenCause, tokenBits, BitVec.toNat_ofNat]; omega

end Sys2Proof.Machine
end

