-- ==== Sys2Proof/Laws/Around.lean ====
section
/-!
SUPPORT. What stands around the effect of a move: the wait for the host's copy of a line (R268), the order of requests within a cycle (R261), the
choice for the next relaxed load (log 72), and a step that a kill undoes (R411). Each either keeps the memory of the state that it is given or goes back to
the memory before the move.
-/
namespace Sys2Proof.Machine
open Sys2Proof

@[simp] theorem State.takeRequest_mem (s : State) (h o line : Nat) (c : Option (Nat × Bool)) : (s.takeRequest h o line c).mem = s.mem := rfl
@[simp] theorem State.takeRequest_wgs (s : State) (h o line : Nat) (c : Option (Nat × Bool)) : (s.takeRequest h o line c).wgs = s.wgs := rfl
@[simp] theorem State.takeRequest_warp (s : State) (h o line : Nat) (c : Option (Nat × Bool)) : (s.takeRequest h o line c).warp = s.warp := rfl
/-- Asking the host for a line changes neither memory nor any workgroup nor the warp. -/
theorem State.askBack_keeps (s : State) (line : Nat) : (s.askBack line).mem = s.mem ∧ (s.askBack line).wgs = s.wgs ∧ (s.askBack line).warp = s.warp := by
  unfold State.askBack
  split
  · exact ⟨rfl, rfl, rfl⟩
  · exact ⟨rfl, rfl, rfl⟩
theorem State.asksBack_keeps (ls : List Nat) : ∀ s : State, (ls.foldl State.askBack s).mem = s.mem ∧ (ls.foldl State.askBack s).wgs = s.wgs ∧ (ls.foldl State.askBack s).warp = s.warp := by
  induction ls with
  | nil => exact fun s => ⟨rfl, rfl, rfl⟩
  | cons l ls ih =>
    intro s
    obtain ⟨h1, h2, h3⟩ := ih (s.askBack l)
    obtain ⟨k1, k2, k3⟩ := s.askBack_keeps l
    exact ⟨h1.trans k1, h2.trans k2, h3.trans k3⟩
/-- A move that is guarded gives its own state, or keeps the memory, the workgroups and the warp as before it. -/
theorem State.guarded_cases {t u v : State} (h : t.guarded (.next u) = .next v) : v = u ∨ (v.mem = t.mem ∧ v.wgs = t.wgs ∧ v.warp = t.warp) := by
  unfold State.guarded at h
  split at h
  · rename_i heq
    cases heq
    split at h
    · cases h; exact .inl rfl
    · cases h; exact .inr (t.asksBack_keeps _)
  · rename_i hne
    exact absurd rfl (hne u)
/-- The order of requests changes neither memory nor any workgroup nor the warp. -/
theorem State.timed_keeps {s u v : State} {m : Move} (h : s.timed m (.next u) = .next v) : v.mem = u.mem ∧ v.wgs = u.wgs ∧ v.warp = u.warp := by
  have go : ∀ (es : List LogEntry) (x : State),
      (es.foldl (fun u e => u.takeRequest (homeDie e.write.addr) e.origin (e.write.addr / 128) (s.moveCore m)) x).mem = x.mem ∧
      (es.foldl (fun u e => u.takeRequest (homeDie e.write.addr) e.origin (e.write.addr / 128) (s.moveCore m)) x).wgs = x.wgs ∧
      (es.foldl (fun u e => u.takeRequest (homeDie e.write.addr) e.origin (e.write.addr / 128) (s.moveCore m)) x).warp = x.warp := by
    intro es
    induction es with
    | nil => exact fun x => ⟨rfl, rfl, rfl⟩
    | cons e es ih => exact fun x => ih _
  cases h
  exact go _ _
/-- The choice for the next relaxed load changes nothing else. -/
theorem State.drawn_next (s u : State) : s.drawn (.next u) = .next { u with slack := Config.defer s.tick } := rfl
/-- A step that a kill undoes is the kill in the state before it; any other stands. -/
theorem State.orKilled_cases {s t v : State} (h : s.orKilled (.next t) = .next v) : v = t ∨ ∃ die tag pa, t.svc.lost = some (die, tag, pa) ∧ v = s.killOwner die tag pa := by
  unfold State.orKilled at h
  split at h
  · rename_i heq
    cases heq
    cases h
    split
    · exact .inr ⟨_, _, _, by assumption, rfl⟩
    · exact .inl rfl
  · rename_i hne
    exact absurd rfl (hne t)

end Sys2Proof.Machine
end

