-- ==== Sys2Proof/Laws/Issue.lean ====
section
/-!
SUPPORT. What the shared operations of Machine/Operands.lean do where nothing stops an issue: reads, result writes, the latch, and
the lane-wise instructions.
-/
namespace Sys2Proof.Machine
open Sys2Proof

/-! ## Reads -/

theorem State.readSlot_valid (s : State) (act : Mask) (pc : DWord) (x : Slot) (h : act &&& ~~~ x.valid = 0#32) :
    s.readSlot act pc x = (s, { lanes := x.lanes, shape := x.shape }) := by
  simp [State.readSlot, h]

/-- A readable code is read without a token. -/
theorem State.readCode_readable (s : State) (act : Mask) (pc : DWord) (ill : Option Word) (c : Code)
    (h : s.warp.readable act c) : s.readCode act pc ill c = (s, (s.warp.rawSource c).1, ill) := by
  obtain ⟨h1, h2⟩ := h
  unfold State.readCode Warp.rawSource at *
  by_cases hc : isCab c = true
  · obtain ⟨hn, hd⟩ := h2 hc
    simp only [hc, if_true, hn, hd]
    simp
  · simp only [Bool.not_eq_true] at hc
    simp only [hc, Bool.false_eq_true, if_false] at h1 ⊢
    by_cases hd : isDrawer c = true
    · simp only [hd, if_true] at h1 ⊢
      rw [State.readSlot_valid _ _ _ _ h1]
    · simp only [hd, Bool.false_eq_true, if_false] at h1 ⊢
      by_cases hl : isLatch c = true
      · simp only [hl, if_true] at h1 ⊢
        rw [State.readSlot_valid _ _ _ _ h1]
      · simp only [hl, Bool.false_eq_true, if_false] at h1 ⊢
        by_cases ht : c = 0xFC#8
        · simp [ht]
        · simp only [ht, if_false] at h1 ⊢
          by_cases hx : c = 0xFD#8
          · simp only [hx, if_true] at h1 ⊢
            rw [State.readSlot_valid _ _ _ _ h1]
          · simp [hx]

theorem State.readGo_readable (act : Mask) (pc : DWord) (wide : List Code) : ∀ (cs : List Code) (s : State) (memo : List (Code × Opd)),
    (∀ c ∈ cs, s.warp.readable (if wide.contains c then fullMask else act) c) →
    ∃ memo', State.readGo act pc wide cs s none memo = (s, memo ++ memo') ∧ (∀ m ∈ memo', m.2 = (s.warp.rawSource m.1).1) ∧
      ∀ c ∈ cs, (∃ m ∈ memo ++ memo', m.1 = c) := by
  intro cs
  induction cs with
  | nil => intro s memo _; exact ⟨[], by simp [State.readGo], by simp, by simp⟩
  | cons c cs ih =>
    intro s memo h
    have hcs : ∀ d ∈ cs, s.warp.readable (if wide.contains d then fullMask else act) d := fun d hd => h d (by simp [hd])
    by_cases hm : (memo.any fun m => m.1 == c) = true
    · obtain ⟨m', e, p, q⟩ := ih s memo hcs
      refine ⟨m', ?_, p, ?_⟩
      · rw [State.readGo]; simp only [hm, if_true]; exact e
      · intro d hd
        rcases List.mem_cons.mp hd with rfl | hd
        · obtain ⟨m, hm1, hm2⟩ := List.any_eq_true.mp hm
          exact ⟨m, by simp [hm1], by simpa using hm2⟩
        · exact q d hd
    · have e0 := State.readCode_readable s _ pc none c (h c (by simp))
      obtain ⟨m', e, p, q⟩ := ih s (memo ++ [(c, (s.warp.rawSource c).1)]) hcs
      refine ⟨(c, (s.warp.rawSource c).1) :: m', ?_, ?_, ?_⟩
      · rw [State.readGo]; simp only [hm, Bool.false_eq_true, if_false]
        rw [e0]; simpa using e
      · intro m hm
        rcases List.mem_cons.mp hm with rfl | hm
        · rfl
        · exact p m hm
      · intro d hd
        rcases List.mem_cons.mp hd with rfl | hd
        · exact ⟨(d, (s.warp.rawSource d).1), by simp, rfl⟩
        · simpa using q d hd

/-- Readable operands are read without a token, and nothing changes. -/
theorem State.readOps_readable (s : State) (act : Mask) (pc : DWord) (wide cs : List Code)
    (h : ∀ c ∈ cs, s.warp.readable (if wide.contains c then fullMask else act) c) :
    s.readOps act pc wide cs = (s, cs.map fun c => (s.warp.rawSource c).1) := by
  obtain ⟨m, e, p, q⟩ := State.readGo_readable act pc wide cs s [] h
  unfold State.readOps
  rw [e]
  simp only [List.nil_append, Prod.mk.injEq, true_and]
  apply List.map_congr_left
  intro c hc
  obtain ⟨x, hx, hxc⟩ := q c hc
  simp only [List.nil_append] at hx
  cases hf : m.find? (fun m => m.1 == c) with
  | none =>
    have := List.find?_eq_none.mp hf x hx
    simp [hxc] at this
  | some y =>
    have h1 := List.find?_some hf
    have h2 := List.mem_of_find?_eq_some hf
    have h3 := p y h2
    have h4 : y.1 = c := by simpa using h1
    simp [h3, h4]

theorem State.settleWords_sound (s : State) (act : Mask) (pc : DWord) (wide cs : List Code) (h : s.svc.wordErrors = []) :
    s.settleWords act pc wide cs = s := by
  simp [State.settleWords, h]

/-! ## Issue -/

/-- The warp as the body of an instruction finds it. -/
def Warp.begun (w : Warp) (f : Form) (act : Mask) (pc : DWord) : Warp :=
  let x := (w.markDead f).advance act pc
  if f.point then x.deschedule else { x with yieldCount := x.yieldCount + 1 }

/-- An issue that nothing stops runs its body on the values its sources hold. -/
theorem State.Issues.run {s : State} {i : Instr} {f : Form} {act : Mask} {pc : DWord} (h : s.Issues i f act pc)
    {refuse stall : Bool} (hr : refuse = false) (hs : stall = false) (body : State → Iss → List Opd → State) :
    s.issue i f refuse stall body =
      (body (s.modFocus fun w => w.begun f act pc) (s.warp.iss act pc) (f.reads.map fun c => (s.warp.rawSource c).1)).modFocus
        fun w => (w.dueAt f (s.ctr s.myDie + f.latAt s.tick)).afterInstr := by
  subst hr hs
  unfold State.issue
  simp only [h.group, h.runs, h.valid, h.ready]
  simp only [Bool.not_true, Bool.false_eq_true, if_false]
  rw [State.settleWords_sound _ _ _ _ _ h.sound, State.readOps_readable _ _ _ _ _ h.sources]
  rfl

/-- A hint that no reserved field suppresses changes the hint state and the PCs alone. -/
theorem State.issueHint_run (s : State) (i : Instr) (f : Hints → Hints) (act : Mask) (pc : DWord)
    (hg : s.warp.group = some (act, pc)) (hr : s.warp.mayIssue = true) (hw : i.wf = true) :
    s.issueHint i f = s.modFocus fun w => { w.advance act pc with hints := f w.hints.afterHint } := by
  unfold State.issueHint
  simp only [hg, hr, hw]
  simp

/-! ## Writing a result -/

/-- A warp after every word of a result has been written. -/
def Warp.puts (act : Mask) : List ResWord → Warp → Warp
  | [], w => w
  | r :: rs, w => puts act rs (w.put act r.dst (resultOf act r.val) r.nom)

/-- A write to a destination that takes it makes no token. -/
theorem State.writeDst_takes (s : State) (act : Mask) (pc : DWord) (d : Code) (vs : List Val) (nom : Shape)
    (h : s.warp.takes act d vs nom) :
    s.writeDst act pc true d vs nom = (s.modFocus fun w => w.put act d vs nom, none) := by
  unfold State.writeDst Warp.put
  by_cases hc : isCab d = true
  · obtain ⟨h1, h2, h3⟩ := h hc
    simp only [hc, if_true]
    unfold State.writeCab
    simp only [Nat.not_le.mpr h1, if_false]
    have hb : ¬ (resultShape act vs nom = .g ∧ s.warp.gmax < s.warp.generalCount -
        (if (s.warp.cab.getD d.toNat Reg.fresh).shape = .g ∧ (s.warp.cab.getD d.toNat Reg.fresh).dead = false then 1 else 0) + 1) := by
      rintro ⟨ha, hb⟩
      have := h2 ha
      omega
    have hdd : ¬ ((s.warp.cab.getD d.toNat Reg.fresh).dead = true ∧ act ≠ fullMask) := fun ⟨ha, hb⟩ => hb (h3 ha)
    simp only [hb, hdd, if_false]
    rfl
  · simp only [Bool.not_eq_true] at hc
    simp only [hc, Bool.false_eq_true, if_false, Bool.and_true]
    by_cases hd : isDrawer d = true
    · simp [hd]
    · simp only [hd, Bool.false_eq_true, if_false]
      rfl

theorem State.writeDsts_takes (act : Mask) (pc : DWord) : ∀ (rs : List ResWord) (s : State), Warp.takesAll act rs s.warp →
    State.writeDsts act pc true (rs.map ResWord.dst) (rs.map fun r => resultOf act r.val) (rs.map ResWord.nom) s none =
      (s.modFocus fun w => Warp.puts act rs w, none) := by
  intro rs
  induction rs with
  | nil => intro s _; rfl
  | cons r rs ih =>
    intro s h
    obtain ⟨h1, h2⟩ := h
    simp only [List.map_cons, State.writeDsts]
    rw [State.writeDst_takes _ _ _ _ _ _ h1]
    exact ih _ h2

/-- A result whose words may all be written reaches its destinations and its latch position. -/
theorem State.deliver_takes (s : State) (act : Mask) (pc : DWord) (rs : List ResWord)
    (h : Warp.takesAll act rs s.warp) :
    s.deliver act pc (rs.map ResWord.dst) (rs.map fun r => resultOf act r.val) (rs.map ResWord.nom) =
      s.modFocus fun w => (Warp.puts act rs w).reserve
        (latchValue act (rs.map fun r => resultOf act r.val) (rs.map ResWord.nom) none) := by
  unfold State.deliver
  rw [State.writeDsts_takes act pc rs s h]
  rfl

/-! ## What each piece changes -/

theorem updAt_getD {α : Type} (l : List α) (i k : Nat) (f : α → α) (d : α) :
    (updAt l i f).getD k d = if k = i ∧ k < l.length then f (l.getD k d) else l.getD k d := by
  unfold updAt
  simp only [List.getD_eq_getElem?_getD, List.getElem?_modify]
  by_cases h : k < l.length
  · simp only [List.getElem?_eq_getElem h, Option.getD_some, h, and_true, Option.map_eq_map, Option.map_some]
    by_cases e : i = k
    · simp [e]
    · simp [e, Ne.symm e]
  · simp [h]

theorem range_map_getD {α : Type} (n k : Nat) (f : Nat → α) (d : α) : ((List.range n).map f).getD k d = if k < n then f k else d := by
  rw [List.getD_eq_getElem?_getD]
  by_cases h : k < n
  · simp [h]
  · simp [h]

@[simp] theorem lanes32_getD {α : Type} (f : Nat → α) (k : Nat) (d : α) : (lanes32 f).getD k d = if k < 32 then f k else d :=
  range_map_getD 32 k f d

/-- A LIFE mark changes dead bits alone. -/
theorem Warp.markDead_eq (w : Warp) (f : Form) : ∃ cab, w.markDead f = { w with cab := cab } ∧ cab.length = w.cab.length ∧
    (∀ k, (cab.getD k Reg.fresh).lanes = (w.cab.getD k Reg.fresh).lanes ∧ (cab.getD k Reg.fresh).shape = (w.cab.getD k Reg.fresh).shape) ∧
    (8 ≤ w.hints.lifePos → cab = w.cab) := by
  unfold Warp.markDead
  by_cases h : 8 ≤ w.hints.lifePos
  · exact ⟨w.cab, by simp [h]⟩
  · simp only [h, if_false, false_implies, and_true]
    generalize List.filter _ _ = cs
    suffices H : ∀ (cs : List Code) (v : Warp), ∃ cab, cs.foldl (fun w c => { w with cab := updAt w.cab c.toNat fun r => { r with dead := true } }) v
        = { v with cab := cab } ∧ cab.length = v.cab.length ∧ ∀ k, (cab.getD k Reg.fresh).lanes = (v.cab.getD k Reg.fresh).lanes ∧
          (cab.getD k Reg.fresh).shape = (v.cab.getD k Reg.fresh).shape from H cs w
    intro cs
    induction cs with
    | nil => intro v; exact ⟨v.cab, rfl, rfl, fun _ => ⟨rfl, rfl⟩⟩
    | cons c cs ih =>
      intro v
      obtain ⟨cab, e, hl, p⟩ := ih { v with cab := updAt v.cab c.toNat fun r => { r with dead := true } }
      refine ⟨cab, by simpa using e, by simpa [updAt] using hl, fun k => ?_⟩
      have := p k
      rw [updAt_getD] at this
      split at this <;> simpa using this

/-- The fields of a warp that no issue of a result instruction touches. -/
theorem Warp.begun_fields (w : Warp) (f : Form) (act : Mask) (pc : DWord) (hp : f.point = false) :
    (w.begun f act pc).cab = (w.markDead f).cab ∧ (w.begun f act pc).drawer = w.drawer ∧ (w.begun f act pc).latch = w.latch ∧
    (w.begun f act pc).hints = w.hints ∧ (w.begun f act pc).n = w.n ∧ (w.begun f act pc).gmax = w.gmax ∧
    (w.begun f act pc).fpstat = w.fpstat ∧ (w.begun f act pc).fpmode = w.fpmode ∧ (w.begun f act pc).chan = w.chan ∧
    (w.begun f act pc).tsize = w.tsize ∧ (w.begun f act pc).region = w.region ∧ (w.begun f act pc).spill = w.spill ∧
    (w.begun f act pc).perturb = w.perturb ∧ (w.begun f act pc).exited = w.exited ∧ (w.begun f act pc).ref = w.ref ∧
    (w.begun f act pc).switched = w.switched := by
  obtain ⟨cab, e, -⟩ := w.markDead_eq f
  unfold Warp.begun
  simp only [hp, Bool.false_eq_true, if_false, e, Warp.advance, Warp.setPcs, Warp.account]
  split <;> (try split) <;> simp

theorem Warp.begun_pcOf (w : Warp) (f : Form) (act : Mask) (pc : DWord) (hp : f.point = false) (l : Nat) (hl : l < 32) :
    (w.begun f act pc).pcOf l = if act.has l then pc + 4#64 else w.pcOf l := by
  obtain ⟨cab, e, -⟩ := w.markDead_eq f
  unfold Warp.begun
  simp only [hp, Bool.false_eq_true, if_false, e, Warp.advance, Warp.setPcs, Warp.account, Warp.pcOf]
  rw [lanes32_getD]
  simp only [hl, if_true]
  split
  · rfl
  · split <;> (try split) <;> rfl

theorem Warp.put_eq (w : Warp) (act : Mask) (d : Code) (vs : List Val) (nom : Shape) :
    ∃ cab dr, w.put act d vs nom = { w with cab := cab, drawer := dr } := by
  unfold Warp.put Warp.setReg Warp.writeDrawer
  split
  · exact ⟨_, w.drawer, rfl⟩
  · split
    · exact ⟨w.cab, _, rfl⟩
    · exact ⟨w.cab, w.drawer, rfl⟩

theorem Warp.puts_eq (act : Mask) : ∀ (rs : List ResWord) (w : Warp), ∃ cab dr, Warp.puts act rs w = { w with cab := cab, drawer := dr }
  | [], w => ⟨w.cab, w.drawer, rfl⟩
  | r :: rs, w => by
    obtain ⟨c1, d1, e1⟩ := Warp.put_eq w act r.dst (resultOf act r.val) r.nom
    obtain ⟨c2, d2, e2⟩ := Warp.puts_eq act rs (w.put act r.dst (resultOf act r.val) r.nom)
    exact ⟨c2, d2, by rw [Warp.puts, e2, e1]⟩

theorem isCab_lt {c : Code} (h : isCab c = true) : c.toNat < 240 := by simpa [isCab] using h
theorem isDrawer_bounds {c : Code} (h : isDrawer c = true) : 240 ≤ c.toNat ∧ c.toNat < 248 := by
  simpa [isDrawer] using h
theorem isDrawer_not_isCab {c : Code} (h : isDrawer c = true) : isCab c = false := by
  have := isDrawer_bounds h; simp [isCab]; omega

/-- The register of a cabinet code, and of any other, after a write. -/
theorem Warp.put_cab (w : Warp) (act : Mask) (d : Code) (vs : List Val) (nom : Shape) (k : Nat) (hk : k < 240) :
    (w.put act d vs nom).cab.getD k Reg.fresh = if isCab d = true ∧ k = d.toNat
      then { lanes := mergeLanes act vs (w.cab.getD k Reg.fresh).lanes, shape := resultShape act vs nom, dead := false }
      else w.cab.getD k Reg.fresh := by
  unfold Warp.put
  by_cases hc : isCab d = true
  · simp only [hc, if_true, Warp.setReg, true_and]
    rw [range_map_getD]
    by_cases e : k = d.toNat
    · simp [e]; intro h; omega
    · simp [hk, e]
  · simp only [hc, Bool.false_eq_true, if_false, false_and]
    split <;> rfl

theorem Warp.put_drawer (w : Warp) (act : Mask) (d : Code) (vs : List Val) (nom : Shape) (k : Nat) (hk : k < 8) :
    (w.put act d vs nom).drawer.getD k Slot.fresh = if isDrawer d = true ∧ k = d.toNat - 0xF0
      then { lanes := mergeLanes act vs (w.drawer.getD k Slot.fresh).lanes, shape := resultShape act vs nom,
             valid := (w.drawer.getD k Slot.fresh).valid ||| act, pend := none }
      else w.drawer.getD k Slot.fresh := by
  unfold Warp.put
  by_cases hc : isCab d = true
  · have hd : isDrawer d = false := by
      cases h : isDrawer d
      · rfl
      · rw [isDrawer_not_isCab h] at hc; exact absurd hc (by simp)
    simp [hc, hd, Warp.setReg]
  · simp only [hc, Bool.false_eq_true, if_false]
    by_cases hd : isDrawer d = true
    · simp only [hd, if_true, Warp.writeDrawer, true_and]
      rw [range_map_getD]
      by_cases e : k = d.toNat - 0xF0
      · simp [e]; intro h; omega
      · simp [hk, e]
    · simp [hd]

theorem mergeLanes_lane (act : Mask) (vs old : List Val) (l : Nat) (hl : l < 32) :
    laneOf (mergeLanes act vs old) l = if act.has l then laneOf vs l else laneOf old l := by
  unfold mergeLanes laneOf; rw [lanes32_getD, if_pos hl]

theorem resultOf_lane (act : Mask) (r : Nat → Val) (l : Nat) (hl : l < 32) : laneOf (resultOf act r) l = if act.has l then r l else Val.zero := by
  unfold resultOf laneOf; rw [lanes32_getD, if_pos hl]

/-- The words of a result go to places of their own. -/
def apart (rs : List ResWord) : Prop := rs.Pairwise fun a b => a.dst ≠ b.dst ∨ (isCab a.dst = false ∧ isDrawer a.dst = false)

theorem code_toNat_inj {a b : Code} : a.toNat = b.toNat ↔ a = b := ⟨BitVec.eq_of_toNat_eq, fun h => by rw [h]⟩

theorem Warp.puts_cab_other (act : Mask) (c : Code) (hc : isCab c = true) : ∀ (rs : List ResWord) (w : Warp), (∀ r ∈ rs, r.dst ≠ c) →
    (Warp.puts act rs w).cab.getD c.toNat Reg.fresh = w.cab.getD c.toNat Reg.fresh := by
  intro rs
  induction rs with
  | nil => intros; rfl
  | cons r rs ih =>
    intro w h
    rw [Warp.puts, ih _ fun q hq => h q (by simp [hq]), Warp.put_cab _ _ _ _ _ _ (isCab_lt hc)]
    have : ¬ (isCab r.dst = true ∧ c.toNat = r.dst.toNat) := fun ⟨_, e⟩ => h r (by simp) (code_toNat_inj.mp e.symm)
    simp [this]

theorem Warp.puts_drawer_other (act : Mask) (c : Code) (hc : isDrawer c = true) : ∀ (rs : List ResWord) (w : Warp), (∀ r ∈ rs, r.dst ≠ c) →
    (Warp.puts act rs w).drawer.getD (c.toNat - 0xF0) Slot.fresh = w.drawer.getD (c.toNat - 0xF0) Slot.fresh := by
  intro rs
  have hb := isDrawer_bounds hc
  induction rs with
  | nil => intros; rfl
  | cons r rs ih =>
    intro w h
    rw [Warp.puts, ih _ fun q hq => h q (by simp [hq]), Warp.put_drawer _ _ _ _ _ _ (by omega)]
    have : ¬ (isDrawer r.dst = true ∧ c.toNat - 0xF0 = r.dst.toNat - 0xF0) := by
      rintro ⟨hd, e⟩
      have := isDrawer_bounds hd
      exact h r (by simp) (code_toNat_inj.mp (by omega))
    simp only [this, if_false]

theorem Warp.puts_cab (act : Mask) : ∀ (rs : List ResWord) (w : Warp), apart rs → ∀ r ∈ rs, isCab r.dst = true →
    (Warp.puts act rs w).cab.getD r.dst.toNat Reg.fresh =
      { lanes := mergeLanes act (resultOf act r.val) (w.cab.getD r.dst.toNat Reg.fresh).lanes, shape := resultShape act (resultOf act r.val) r.nom, dead := false } := by
  intro rs
  induction rs with
  | nil => intro _ _ r hr; simp at hr
  | cons q rs ih =>
    intro w h r hr hc
    obtain ⟨h1, h2⟩ := List.pairwise_cons.mp h
    rw [Warp.puts]
    rcases List.mem_cons.mp hr with rfl | hr
    · rw [Warp.puts_cab_other _ _ hc _ _ (fun p hp e => ?_), Warp.put_cab _ _ _ _ _ _ (isCab_lt hc)]
      · simp [hc]
      · rcases h1 p hp with h | ⟨h, _⟩
        · exact h e.symm
        · rw [h] at hc; exact absurd hc (by simp)
    · rw [ih _ h2 r hr hc, Warp.put_cab _ _ _ _ _ _ (isCab_lt hc)]
      have : ¬ (isCab q.dst = true ∧ r.dst.toNat = q.dst.toNat) := by
        rintro ⟨hq, e⟩
        rcases h1 r hr with h | ⟨h, _⟩
        · exact h (code_toNat_inj.mp e.symm)
        · rw [h] at hq; exact absurd hq (by simp)
      simp [this]

theorem Warp.puts_drawer (act : Mask) : ∀ (rs : List ResWord) (w : Warp), apart rs → ∀ r ∈ rs, isDrawer r.dst = true →
    (Warp.puts act rs w).drawer.getD (r.dst.toNat - 0xF0) Slot.fresh =
      { lanes := mergeLanes act (resultOf act r.val) (w.drawer.getD (r.dst.toNat - 0xF0) Slot.fresh).lanes, shape := resultShape act (resultOf act r.val) r.nom,
        valid := (w.drawer.getD (r.dst.toNat - 0xF0) Slot.fresh).valid ||| act, pend := none } := by
  intro rs
  induction rs with
  | nil => intro _ _ r hr; simp at hr
  | cons q rs ih =>
    intro w h r hr hc
    have hb := isDrawer_bounds hc
    obtain ⟨h1, h2⟩ := List.pairwise_cons.mp h
    rw [Warp.puts]
    rcases List.mem_cons.mp hr with rfl | hr
    · rw [Warp.puts_drawer_other _ _ hc _ _ (fun p hp e => ?_), Warp.put_drawer _ _ _ _ _ _ (by omega)]
      · simp [hc]
      · rcases h1 p hp with h | ⟨_, h⟩
        · exact h e.symm
        · rw [h] at hc; exact absurd hc (by simp)
    · rw [ih _ h2 r hr hc, Warp.put_drawer _ _ _ _ _ _ (by omega)]
      have : ¬ (isDrawer q.dst = true ∧ r.dst.toNat - 0xF0 = q.dst.toNat - 0xF0) := by
        rintro ⟨hq, e⟩
        have := isDrawer_bounds hq
        rcases h1 r hr with h | ⟨_, h⟩
        · exact h (code_toNat_inj.mp (by omega))
        · rw [h] at hq; exact absurd hq (by simp)
      simp only [this, if_false]

/-! ## The result of an issue -/

theorem Warp.takesAll_congr (act : Mask) : ∀ (rs : List ResWord) (v w : Warp), v.cab = w.cab → v.n = w.n → v.gmax = w.gmax →
    Warp.takesAll act rs v → Warp.takesAll act rs w := by
  intro rs
  induction rs with
  | nil => intros; trivial
  | cons r rs ih =>
    intro v w h1 h2 h3 h
    obtain ⟨ha, hb⟩ := h
    refine ⟨?_, ih _ _ ?_ ?_ ?_ hb⟩
    · intro hc
      have := ha hc
      simpa [Warp.generalCount, h1, h2, h3] using this
    · unfold Warp.put Warp.setReg Warp.writeDrawer
      rw [h1]
      split
      · rfl
      · split <;> simp [h1]
    · unfold Warp.put Warp.setReg Warp.writeDrawer; split <;> (try split) <;> exact h2
    · unfold Warp.put Warp.setReg Warp.writeDrawer; split <;> (try split) <;> exact h3

theorem Warp.rawSource_cab {w : Warp} {c : Code} (hc : isCab c = true) :
    w.rawSource c = ({ lanes := (w.cab.getD c.toNat Reg.fresh).lanes, shape := (w.cab.getD c.toNat Reg.fresh).shape }, fullMask) := by
  simp [Warp.rawSource, hc]
theorem Warp.rawSource_drawer {w : Warp} {c : Code} (hc : isDrawer c = true) :
    w.rawSource c = ({ lanes := (w.drawer.getD (c.toNat - 0xF0) Slot.fresh).lanes, shape := (w.drawer.getD (c.toNat - 0xF0) Slot.fresh).shape },
      (w.drawer.getD (c.toNat - 0xF0) Slot.fresh).valid) := by
  simp [Warp.rawSource, hc, isDrawer_not_isCab hc]

/-- The latch after an instruction has taken a position. -/
theorem Warp.reserve_latch (w : Warp) (x : Slot) (k : Nat) (hk : k < 3) :
    (w.reserve x).latch.getD k Slot.fresh = match w.hints.unpinned.idxOf? k with
      | none => w.latch.getD k Slot.fresh
      | some 0 => x
      | some (j + 1) => w.latch.getD (w.hints.unpinned.getD j 0) Slot.fresh := by
  unfold Warp.reserve shiftLatch
  rw [range_map_getD]
  simp only [hk, if_true]
  all_goals rfl

theorem Hints.unpinned_nodup (h : Hints) : h.unpinned.Nodup := List.Nodup.filter _ List.nodup_range
theorem Hints.unpinned_lt {h : Hints} {k : Nat} (hk : k ∈ h.unpinned) : k < 3 := by
  simpa using (List.mem_filter.mp hk).1
theorem idxOf?_of_getElem? {l : List Nat} (hn : l.Nodup) {j k : Nat} (h : l[j]? = some k) : l.idxOf? k = some j := by
  obtain ⟨hj, e⟩ := List.getElem?_eq_some_iff.mp h
  unfold List.idxOf?
  rw [List.findIdx?_eq_some_iff_getElem]
  refine ⟨hj, by simp [e], fun i hi => ?_⟩
  simp only [beq_iff_eq]
  intro c
  have := hn.getElem_inj_iff (i := i) (j := j) (hi := by omega) (hj := hj)
  omega

theorem Warp.dueAt_latch (w : Warp) (f : Form) (t k : Nat) :
    ((w.dueAt f t).latch.getD k Slot.fresh).lanes = (w.latch.getD k Slot.fresh).lanes ∧
    ((w.dueAt f t).latch.getD k Slot.fresh).valid = (w.latch.getD k Slot.fresh).valid ∧
    (w.hints.unpinned.head? ≠ some k → (w.dueAt f t).latch.getD k Slot.fresh = w.latch.getD k Slot.fresh) := by
  unfold Warp.dueAt
  split
  · simp
  · split
    · simp
    · rename_i i hi
      simp only [updAt_getD]
      split
      · rename_i h
        refine ⟨rfl, rfl, fun hne => absurd ?_ hne⟩
        rw [hi, h.1]
      · simp

theorem Warp.dueAt_eq (w : Warp) (f : Form) (t : Nat) : ∃ l, w.dueAt f t = { w with latch := l } := by
  unfold Warp.dueAt
  split
  · exact ⟨w.latch, rfl⟩
  · split
    · exact ⟨w.latch, rfl⟩
    · exact ⟨_, rfl⟩

theorem Warp.afterInstr_eq (w : Warp) : ∃ h s d, w.afterInstr = { w with hints := h, switched := s, divCount := d } := by
  unfold Warp.afterInstr
  split
  · exact ⟨_, w.switched, w.divCount, rfl⟩
  · exact ⟨_, _, _, rfl⟩

/-- The warp after a result has been delivered. -/
def Warp.delivered (w : Warp) (f : Form) (act : Mask) (pc : DWord) (rs : List ResWord) (x : Slot) (fl : Flags) (n : Nat) : Warp :=
  (((((w.begun f act pc).puts act rs).reserve x).raiseFlags fl).dueAt f n).afterInstr

theorem Warp.delivered_pieces (w : Warp) (f : Form) (act : Mask) (pc : DWord) (rs : List ResWord) (x : Slot) (fl : Flags) (n : Nat) :
    ∃ l h sw d, w.delivered f act pc rs x fl n =
      { ((w.begun f act pc).puts act rs) with latch := l, hints := h, switched := sw, divCount := d, fpstat := orFlags ((w.begun f act pc).puts act rs).fpstat fl } ∧
      l = ((((w.begun f act pc).puts act rs).reserve x).raiseFlags fl |>.dueAt f n).latch := by
  obtain ⟨l, e⟩ := ((((w.begun f act pc).puts act rs).reserve x).raiseFlags fl).dueAt_eq f n
  obtain ⟨h, sw, d, e2⟩ := (((((w.begun f act pc).puts act rs).reserve x).raiseFlags fl).dueAt f n).afterInstr_eq
  refine ⟨l, h, sw, d, ?_, by rw [e]⟩
  rw [Warp.delivered, e2, e]
  rfl

/-- A delivered result is a result in the sense of the statements. -/
theorem State.Result.of_delivered (s : State) (f : Form) (act : Mask) (pc : DWord) (rs : List ResWord) (x : Slot) (fl : Flags) (n : Nat)
    (hp : f.point = false) (ha : apart rs)
    (hx : ∀ r, rs.head? = some r → ∀ l < 32, act.has l = true → laneOf x.lanes l = r.val l ∧ x.valid = act) :
    State.Result s { s with warp := s.warp.delivered f act pc rs x fl n } act pc rs fl := by
  obtain ⟨l, h, sw, d, e, el⟩ := s.warp.delivered_pieces f act pc rs x fl n
  obtain ⟨cab, dr, ep⟩ := Warp.puts_eq act rs (s.warp.begun f act pc)
  obtain ⟨b1, b2, b3, b4, b5, b6, b7, b8, b9, b10, b11, b12, b13, b14, b15, b16⟩ := s.warp.begun_fields f act pc hp
  obtain ⟨cab0, em, -, mk, mk8⟩ := s.warp.markDead_eq f
  have hm : (s.warp.markDead f).cab = cab0 := by rw [em]
  have hcab : (s.warp.delivered f act pc rs x fl n).cab = ((s.warp.begun f act pc).puts act rs).cab := by rw [e]
  have hdr : (s.warp.delivered f act pc rs x fl n).drawer = ((s.warp.begun f act pc).puts act rs).drawer := by rw [e]
  have hlat : (s.warp.delivered f act pc rs x fl n).latch = l := by rw [e]
  have hhints : (((s.warp.begun f act pc).puts act rs)).hints = s.warp.hints := by rw [ep]; exact b4
  have hplat : (((s.warp.begun f act pc).puts act rs)).latch = s.warp.latch := by rw [ep]; exact b3
  have key : ∀ k, k < 3 → (s.warp.hints.unpinned.head? ≠ some k →
      l.getD k Slot.fresh = (((s.warp.begun f act pc).puts act rs).reserve x).latch.getD k Slot.fresh) ∧
      (l.getD k Slot.fresh).lanes = ((((s.warp.begun f act pc).puts act rs).reserve x).latch.getD k Slot.fresh).lanes ∧
      (l.getD k Slot.fresh).valid = ((((s.warp.begun f act pc).puts act rs).reserve x).latch.getD k Slot.fresh).valid := by
    intro k hk
    obtain ⟨d1, d2, d3⟩ := ((((s.warp.begun f act pc).puts act rs).reserve x).raiseFlags fl).dueAt_latch f n k
    rw [el]
    refine ⟨fun hne => d3 ?_, d1, d2⟩
    show (((s.warp.begun f act pc).puts act rs)).hints.unpinned.head? ≠ _
    rw [hhints]; exact hne
  refine ⟨?_, ?_, ?_, ?_, ?_, ?_, ?_, ?_, ?_, ?_, ?_, ?_, ?_, ?_, ?_⟩
  · intro r hr hc l hl
    simp only [Warp.valueOf, Warp.rawSource_cab hc, hcab]
    rw [Warp.puts_cab act rs _ ha r hr hc, mergeLanes_lane _ _ _ _ hl, resultOf_lane _ _ _ hl, b1, hm, (mk _).1]
    split <;> rfl
  · intro r hr hc
    simp only [Warp.shapeOf, Warp.rawSource_cab hc, hcab]
    rw [Warp.puts_cab act rs _ ha r hr hc]
  · intro r hr hc l hl
    simp only [Warp.valueOf, Warp.rawSource_drawer hc, hdr]
    rw [Warp.puts_drawer act rs _ ha r hr hc, mergeLanes_lane _ _ _ _ hl, resultOf_lane _ _ _ hl, b2]
    split <;> rfl
  · intro r hr hc
    simp only [Warp.rawSource_drawer hc, hdr]
    rw [Warp.puts_drawer act rs _ ha r hr hc, b2]
  · intro k hk hu r hr i hi hact
    simp only [hlat]
    obtain ⟨-, k2, k3⟩ := key k hk
    have h0 : s.warp.hints.unpinned[0]? = some k := by rw [← List.head?_eq_getElem?]; exact hu
    have : (((s.warp.begun f act pc).puts act rs).reserve x).latch.getD k Slot.fresh = x := by
      rw [Warp.reserve_latch _ _ _ hk, hhints, idxOf?_of_getElem? s.warp.hints.unpinned_nodup h0]
    rw [k2, k3, this]
    exact hx r hr i hi hact
  · intro k hk hu
    simp only [hlat]
    obtain ⟨k1, -, -⟩ := key k hk
    rw [k1, Warp.reserve_latch _ _ _ hk, hhints, List.idxOf?_eq_none_iff.mpr hu, hplat]
    intro hh
    exact hu (List.mem_of_mem_head? (by simpa using hh))
  · intro j k m hj hm' _
    have hm3 : m < 3 := Hints.unpinned_lt (List.mem_of_getElem? hm')
    simp only [hlat]
    obtain ⟨k1, -, -⟩ := key m hm3
    rw [k1, Warp.reserve_latch _ _ _ hm3, hhints, idxOf?_of_getElem? s.warp.hints.unpinned_nodup hm', hplat]
    · simp [List.getD_eq_getElem?_getD, hj]
    · intro hh
      have h0 : s.warp.hints.unpinned[0]? = some m := by rw [← List.head?_eq_getElem?]; exact hh
      have := (idxOf?_of_getElem? s.warp.hints.unpinned_nodup h0).symm.trans (idxOf?_of_getElem? s.warp.hints.unpinned_nodup hm')
      simp at this
  · simp only [e, ep, b7]
  · intro i hi
    have : (s.warp.delivered f act pc rs x fl n).pcOf i = (s.warp.begun f act pc).pcOf i := by
      rw [e, ep]; rfl
    simp only [this]
    exact Warp.begun_pcOf _ _ _ _ hp _ hi
  · intro c hc hne
    simp only [Warp.shapeOf, Warp.valueOf, Warp.rawSource_cab hc, hcab]
    rw [Warp.puts_cab_other act c hc rs _ hne, b1, hm, (mk _).1, (mk _).2]
    exact ⟨rfl, fun _ _ => rfl⟩
  · intro h8 c hc hne
    simp only [hcab]
    rw [Warp.puts_cab_other act c hc rs _ hne, b1, hm, mk8 h8]
  · intro c hc hne
    simp only [hdr]
    rw [Warp.puts_drawer_other act c hc rs _ hne, b2]
  · simp only [e, ep, b8, b9, b10, and_self]
  · simp only [e, ep, b11, b12, b13, b14, and_self]
  · rfl

/-! ## Results given as lane lists -/

/-- A list of lane values agrees with a result word in the lanes of a mask. -/
def agrees (act : Mask) (w : List Val) (r : ResWord) : Prop := w.length = 32 ∧ ∀ l < 32, act.has l = true → laneOf w l = r.val l

theorem fullMask_has (l : Nat) (hl : l < 32) : fullMask.has l = true := by
  have h : ∀ l : Fin 32, fullMask.has l.val = true := by decide
  exact h ⟨l, hl⟩

theorem lanes_ext {a b : List Val} (ha : a.length = 32) (hb : b.length = 32) (h : ∀ l < 32, laneOf a l = laneOf b l) : a = b := by
  apply List.ext_getElem (by rw [ha, hb])
  intro l h1 h2
  have := h l (by omega)
  simpa [laneOf, List.getD_eq_getElem?_getD, h1, h2] using this

theorem agrees.merge {act : Mask} {w : List Val} {r : ResWord} (h : agrees act w r) (old : List Val) :
    mergeLanes act w old = mergeLanes act (resultOf act r.val) old := by
  apply lanes_ext (by simp [mergeLanes, lanes32]) (by simp [mergeLanes, lanes32])
  intro l hl
  rw [mergeLanes_lane _ _ _ _ hl, mergeLanes_lane _ _ _ _ hl, resultOf_lane _ _ _ hl]
  split
  · rename_i ha; exact h.2 l hl ha
  · rfl

theorem agrees.shape {act : Mask} {w : List Val} {r : ResWord} (h : agrees act w r) (nom : Shape) :
    resultShape act w nom = resultShape act (resultOf act r.val) nom := by
  by_cases hf : act = fullMask
  · have : w = resultOf act r.val := by
      apply lanes_ext h.1 (by simp [resultOf, lanes32])
      intro l hl
      rw [resultOf_lane _ _ _ hl, hf, fullMask_has l hl, if_pos rfl]
      exact h.2 l hl (by rw [hf]; exact fullMask_has l hl)
    rw [this]
  · simp [resultShape, hf]

theorem State.writeDst_agrees {act : Mask} {w : List Val} {r : ResWord} (h : agrees act w r) (s : State) (pc : DWord) (keep : Bool)
    (c : Code) (nom : Shape) : s.writeDst act pc keep c w nom = s.writeDst act pc keep c (resultOf act r.val) nom := by
  unfold State.writeDst State.writeCab Warp.writeDrawer
  simp only [h.merge, h.shape]

theorem State.writeDsts_agrees (act : Mask) (pc : DWord) : ∀ (rs : List ResWord) (ws : List (List Val)) (s : State) (t : Option Word),
    List.Forall₂ (agrees act) ws rs →
    State.writeDsts act pc true (rs.map ResWord.dst) ws (rs.map ResWord.nom) s t =
      State.writeDsts act pc true (rs.map ResWord.dst) (rs.map fun r => resultOf act r.val) (rs.map ResWord.nom) s t := by
  intro rs
  induction rs with
  | nil => intro ws s t h; cases h; rfl
  | cons r rs ih =>
    intro ws s t h
    cases h with
    | cons h1 h2 =>
      simp only [List.map_cons, State.writeDsts]
      rw [State.writeDst_agrees h1, ih _ _ _ h2]

/-- What an instruction whose body delivers a result leaves. -/
theorem State.Issues.result {s : State} {i : Instr} {f : Form} {act : Mask} {pc : DWord} (h : s.Issues i f act pc)
    {refuse stall : Bool} (hr : refuse = false) (hs : stall = false) (body : State → Iss → List Opd → State)
    (rs : List ResWord) (ws : List (List Val)) (fl : Flags) (hp : f.point = false) (ha : apart rs)
    (ht : Warp.takesAll act rs (s.warp.markDead f)) (hw : List.Forall₂ (agrees act) ws rs)
    (hb : body (s.modFocus fun w => w.begun f act pc) (s.warp.iss act pc) (f.reads.map fun c => (s.warp.rawSource c).1) =
      ((s.modFocus fun w => w.begun f act pc).deliver act pc (rs.map ResWord.dst) ws (rs.map ResWord.nom)).modFocus fun w => w.raiseFlags fl) :
    State.Result s (s.issue i f refuse stall body) act pc rs fl := by
  rw [h.run hr hs, hb]
  have hb' := s.warp.begun_fields f act pc hp
  have ht' : Warp.takesAll act rs (s.warp.begun f act pc) := by
    refine Warp.takesAll_congr act rs _ _ hb'.1.symm ?_ ?_ ht
    · rw [hb'.2.2.2.2.1]; obtain ⟨cab, e, -⟩ := s.warp.markDead_eq f; rw [e]
    · rw [hb'.2.2.2.2.2.1]; obtain ⟨cab, e, -⟩ := s.warp.markDead_eq f; rw [e]
  unfold State.deliver
  rw [State.writeDsts_agrees _ _ _ _ _ _ hw, State.writeDsts_takes act pc rs _ ht']
  refine State.Result.of_delivered s f act pc rs (latchValue act ws (rs.map ResWord.nom) none) fl (s.ctr s.myDie + f.latAt s.tick) hp ha ?_
  intro r hrs l hl hl'
  cases hw with
  | nil => simp at hrs
  | cons h1 h2 =>
    simp only [List.head?_cons, Option.some.injEq] at hrs
    subst hrs
    exact ⟨h1.2 l hl hl', rfl⟩

theorem Warp.raiseFlags_zero (w : Warp) : w.raiseFlags 0#6 = w := by
  simp [Warp.raiseFlags, orFlags]

/-- As `State.Issues.result`, where the body raises no flag. -/
theorem State.Issues.result_quiet {s : State} {i : Instr} {f : Form} {act : Mask} {pc : DWord} (h : s.Issues i f act pc)
    {refuse stall : Bool} (hr : refuse = false) (hs : stall = false) (body : State → Iss → List Opd → State)
    (rs : List ResWord) (ws : List (List Val)) (hp : f.point = false) (ha : apart rs)
    (ht : Warp.takesAll act rs (s.warp.markDead f)) (hw : List.Forall₂ (agrees act) ws rs)
    (hb : body (s.modFocus fun w => w.begun f act pc) (s.warp.iss act pc) (f.reads.map fun c => (s.warp.rawSource c).1) =
      (s.modFocus fun w => w.begun f act pc).deliver act pc (rs.map ResWord.dst) ws (rs.map ResWord.nom)) :
    State.Result s (s.issue i f refuse stall body) act pc rs 0#6 := by
  refine h.result hr hs body rs ws 0#6 hp ha ht hw ?_
  rw [hb]
  simp only [State.modFocus, Warp.raiseFlags_zero]

/-! ## Lane-wise instructions -/

/-- The values that the sources of a form hold in a lane. -/
def State.srcs (s : State) (f : Form) (l : Nat) : List Val := f.reads.map fun c => s.warp.valueOf c l

theorem State.laneSrcs_srcs (s : State) (f : Form) (l : Nat) :
    laneSrcs (f.reads.map fun c => (s.warp.rawSource c).1) l = s.srcs f l := by
  simp [laneSrcs, State.srcs, Warp.valueOf, Function.comp_def]

/-- Word `k` of a lane-wise result. -/
theorem laneWise_word (act : Mask) (os : List Opd) (n : Nat) (f : Nat → List Word → List Word × Flags) (k : Nat) (hk : k < n)
    (d : Code) (nom : Shape) :
    agrees act ((laneWise act os n f).1.getD k [])
      { dst := d, nom := nom, val := fun l => orToken (laneSrcs os l) ((f l ((laneSrcs os l).map Val.bits)).1.getD k 0#32) } := by
  unfold laneWise
  simp only [range_map_getD, hk, if_true]
  refine ⟨by simp [lanes32], fun l hl ha => ?_⟩
  unfold laneOf
  rw [List.getD_eq_getElem?_getD, List.getElem?_map]
  simp only [lanes32, List.getElem?_map, List.getElem?_range hl, Option.map_some, Option.getD_some, ha, if_true, orToken]
  cases firstPoison (laneSrcs os l) with
  | some t => simp [List.getD_eq_getElem?_getD, hk]
  | none =>
    simp only [List.getD_eq_getElem?_getD, List.getElem?_map]
    cases (f l ((laneSrcs os l).map Val.bits)).1[k]? <;> rfl

/-- The flags of a lane-wise result. -/
theorem laneWise_flags (act : Mask) (os : List Opd) (n : Nat) (f : Nat → List Word → List Word × Flags) :
    (laneWise act os n f).2 = flagsOf act fun l =>
      if (firstPoison (laneSrcs os l)).isSome then 0#6 else (f l ((laneSrcs os l).map Val.bits)).2 := by
  unfold laneWise flagsOf
  simp only [lanes32, List.foldl_map]
  congr 1
  funext a l
  by_cases h : act.has l = true
  · simp only [h, if_true]
    cases firstPoison (laneSrcs os l) <;> simp
  · simp [h]

/-- What a lane-wise instruction of one result word leaves. -/
theorem State.alu_result {s : State} {i : Instr} {f : Form} {act : Mask} {pc : DWord} (h : s.Issues i f act pc)
    (nom : List Opd → Shape) (fn : FpEnv → Nat → List Word → List Word × Flags) (d : Code) (hd : f.dsts = [d]) (hp : f.point = false)
    (ht : Warp.takesAll act [{ dst := d, nom := nom (f.reads.map fun c => (s.warp.rawSource c).1)
                               val := fun l => orToken (s.srcs f l) ((fn (s.warp.iss act pc).env l ((s.srcs f l).map Val.bits)).1.getD 0 0#32) }]
      (s.warp.markDead f)) :
    State.Result s (s.alu i f nom fn) act pc
      [{ dst := d, nom := nom (f.reads.map fun c => (s.warp.rawSource c).1)
         val := fun l => orToken (s.srcs f l) ((fn (s.warp.iss act pc).env l ((s.srcs f l).map Val.bits)).1.getD 0 0#32) }]
      (flagsOf act fun l => if (firstPoison (s.srcs f l)).isSome then 0#6 else (fn (s.warp.iss act pc).env l ((s.srcs f l).map Val.bits)).2) := by
  unfold State.alu
  refine h.result rfl rfl _ _
    [(laneWise act (f.reads.map fun c => (s.warp.rawSource c).1) 1 (fn (s.warp.iss act pc).env)).1.getD 0 []] _ hp ?_ ht ?_ ?_
  · simp [apart]
  · refine List.Forall₂.cons ?_ List.Forall₂.nil
    have := laneWise_word act (f.reads.map fun c => (s.warp.rawSource c).1) 1 (fn (s.warp.iss act pc).env) 0 (by omega) d
      (nom (f.reads.map fun c => (s.warp.rawSource c).1))
    simpa only [State.laneSrcs_srcs] using this
  · have hf := laneWise_flags act (f.reads.map fun c => (s.warp.rawSource c).1) 1 (fn (s.warp.iss act pc).env)
    simp only [State.laneSrcs_srcs] at hf
    rw [← hf]
    simp only [hd, List.length_singleton, List.map_cons, List.map_nil, List.replicate_one, Warp.iss]
    rfl

/-- A lane-wise instruction of one result word gives what its function says, lane by lane. -/
theorem Gives.alu {s : State} {i : Instr} {f : Form} {act : Mask} {pc : DWord} {nom : List Opd → Shape}
    {fn : FpEnv → Nat → List Word → List Word × Flags} {d : Code} {n : Shape} {v : Nat → Val} {fl : Nat → Flags}
    (e : exec i s = .next (s.alu i f nom fn)) (hd : f.dsts = [d]) (hp : f.point = false)
    (hn : nom (f.reads.map fun c => (s.warp.rawSource c).1) = n)
    (hv : ∀ l, orToken (s.srcs f l) ((fn (s.warp.iss act pc).env l ((s.srcs f l).map Val.bits)).1.getD 0 0#32) = v l)
    (hf : ∀ l, (if (firstPoison (s.srcs f l)).isSome then 0#6 else (fn (s.warp.iss act pc).env l ((s.srcs f l).map Val.bits)).2) = fl l) :
    Gives s i f act pc [⟨d, n, v⟩] (flagsOf act fl) := by
  intro h ht
  obtain rfl := funext hv
  obtain rfl := funext hf
  subst hn
  exact ⟨_, e, State.alu_result h nom fn d hd hp ht⟩

theorem flagsOf_zero (act : Mask) : flagsOf act (fun _ => 0#6) = 0#6 := by
  unfold flagsOf
  simp

/-- A token is found among values exactly where one of them is poisoned. -/
theorem firstPoison_isSome (vs : List Val) : (firstPoison vs).isSome = vs.any Val.psn := by
  unfold firstPoison
  induction vs with
  | nil => rfl
  | cons v vs ih => cases h : v.psn <;> simp_all

/-- As `Gives.alu`, where the instruction raises no flag. -/
theorem Gives.quiet {s : State} {i : Instr} {f : Form} {act : Mask} {pc : DWord} {nom : List Opd → Shape}
    {fn : FpEnv → Nat → List Word → List Word × Flags} {d : Code} {n : Shape} {v : Nat → Val}
    (e : exec i s = .next (s.alu i f nom fn)) (hd : f.dsts = [d]) (hp : f.point = false)
    (hn : nom (f.reads.map fun c => (s.warp.rawSource c).1) = n)
    (hv : ∀ l, orToken (s.srcs f l) ((fn (s.warp.iss act pc).env l ((s.srcs f l).map Val.bits)).1.getD 0 0#32) = v l)
    (hf : ∀ env l ws, (fn env l ws).2 = 0#6) :
    Gives s i f act pc [⟨d, n, v⟩] 0#6 := by
  have := Gives.alu (act := act) (pc := pc) (fl := fun _ => 0#6) e hd hp hn hv (fun l => by simp [hf])
  rwa [flagsOf_zero] at this

end Sys2Proof.Machine
end

