-- ==== Sys2Proof/Laws/Lanewise.lean ====
section
/-!
SUPPORT. The saturating and the lane-wise integer instructions, in the words of the statements.
-/
namespace Sys2Proof.Machine
open Sys2Proof

section
variable {s : State} {act : Mask} {pc : DWord} {d a b : Code}

theorem nomOther_eq (cs : List Code) (w : Warp) : nomOther (cs.map fun c => (w.rawSource c).1) = everyOther (cs.map w.shapeOf) := by
  simp [nomOther, everyOther, Warp.shapeOf, List.all_map, Function.comp_def]
theorem nomAdd_eq (cs : List Code) (w : Warp) : nomAdd (cs.map fun c => (w.rawSource c).1) = additive (cs.map w.shapeOf) := by
  simp [nomAdd, additive, Warp.shapeOf, List.all_map, List.any_map, Function.comp_def]

theorem resInt_fst (sat : Bool) (v : BitVec 1) (x : Int) : (resInt sat v x).1 = saturated sat v x := by
  have hv : v = 0#1 ∨ v = 1#1 := by revert v; decide
  unfold resInt saturated clampInt trunc32 rangeOf
  cases sat
  · simp
  · rcases hv with rfl | rfl
    · simp only [if_true]
      congr 1
      norm_num
      split
      · rename_i h; simp; omega
      · split <;> simp <;> omega
    · simp only [if_true, show ¬ (1#1 = 0#1) by decide, if_false]
      congr 1
      norm_num
      split
      · rename_i h; simp; omega
      · split <;> simp <;> omega

theorem resInt_snd (sat : Bool) (v : BitVec 1) (x : Int) : (resInt sat v x).2 = satFlag sat v x := by
  have hv : v = 0#1 ∨ v = 1#1 := by revert v; decide
  unfold resInt satFlag clampInt rangeOf flIf
  cases sat
  · simp
  · rcases hv with rfl | rfl
    · simp only [if_true]
      norm_num
      by_cases h : x < -2147483648
      · simp [h]
      · by_cases h2 : 2147483647 < x <;> simp [h, h2]
    · simp only [if_true, show ¬ (1#1 = 0#1) by decide, if_false]
      norm_num
      by_cases h : x < 0
      · simp [h]
      · by_cases h2 : 4294967295 < x <;> simp [h, h2]

/-- Res instructions. -/
theorem Gives.res {i : Instr} {f : Form} {v : BitVec 1} {nom : List Opd → Shape} {g : List Word → Int}
    {n : Shape} {x : Nat → Val}
    (e : exec i s = .next (s.resOp i f v nom g)) (hd : f.dsts = [d]) (hp : f.point = false)
    (hn : (if s.warp.sat then nomOther else nom) (f.reads.map fun c => (s.warp.rawSource c).1) = n)
    (hv : ∀ l, orToken (s.srcs f l) (saturated s.warp.sat v (g ((s.srcs f l).map Val.bits))) = x l) :
    Gives s i f act pc [⟨d, n, x⟩] (s.warp.flagged f.reads act fun l => satFlag s.warp.sat v (g ((s.srcs f l).map Val.bits))) := by
  unfold State.resOp at e
  refine Gives.alu e hd hp hn ?_ ?_
  · intro l
    rw [← hv l, ← resInt_fst]
    rfl
  · intro l
    show (if _ then _ else (resInt _ _ _).2) = _
    rw [resInt_snd, firstPoison_isSome]
    unfold State.srcs
    rw [List.any_map]
    rfl


theorem Gives.alu2 {i : Instr} {nom : List Opd → Shape} {fn : Word → Word → Word} {n : Shape} {x : Nat → Val}
    (e : exec i s = .next (s.alu2 i d a b nom fn))
    (hn : nom ([a, b].map fun c => (s.warp.rawSource c).1) = n) (hx : ∀ l, s.warp.bin a b fn l = x l) :
    Gives s i (formT d a b) act pc [⟨d, n, x⟩] 0#6 :=
  Gives.quiet e rfl rfl hn (fun l => by rw [← hx]; rfl) fun _ _ _ => rfl

theorem Gives.alu1 {i : Instr} {nom : List Opd → Shape} {fn : Word → Word} {n : Shape} {x : Nat → Val}
    (e : exec i s = .next (s.alu1 i d a nom fn))
    (hn : nom ([a].map fun c => (s.warp.rawSource c).1) = n) (hx : ∀ l, s.warp.un a fn l = x l) :
    Gives s i (formU d a) act pc [⟨d, n, x⟩] 0#6 :=
  Gives.quiet e rfl rfl hn (fun l => by rw [← hx]; rfl) fun _ _ _ => rfl

theorem Gives.alu3 {i : Instr} {f : Form} {nom : List Opd → Shape} {fn : Word → Word → Word → Word} {n : Shape} {x : Nat → Val}
    (e : exec i s = .next (s.alu i f nom fun _ _ ws => ([fn (src ws 0) (src ws 1) (src ws 2)], 0#6))) (hr : f.reads = [a, b, d]) (hd : f.dsts = [d]) (hp : f.point = false)
    (hn : nom ([a, b, d].map fun c => (s.warp.rawSource c).1) = n) (hx : ∀ l, s.warp.tern a b d fn l = x l) :
    Gives s i f act pc [⟨d, n, x⟩] 0#6 :=
  Gives.quiet e hd hp (by rw [hr]; exact hn) (fun l => by rw [← hx]; unfold State.srcs; rw [hr]; rfl) fun _ _ _ => rfl

theorem Warp.un_congr {w : Warp} {f g : Word → Word} (h : ∀ x, f x = g x) (l : Nat) : w.un a f l = w.un a g l := by rw [funext h]
theorem Warp.bin_congr {w : Warp} {f g : Word → Word → Word} (h : ∀ x y, f x y = g x y) (l : Nat) : w.bin a b f l = w.bin a b g l := by
  rw [funext fun x => funext (h x)]
theorem Warp.tern_congr {w : Warp} {f g : Word → Word → Word → Word} (h : ∀ x y z, f x y z = g x y z) (l : Nat) :
    w.tern a b d f l = w.tern a b d g l := by
  rw [funext fun x => funext fun y => funext (h x y)]

end

end Sys2Proof.Machine
end

