-- ==== Sys2Proof/Laws/PerInstr.lean ====
section
/-!
SUPPORT. The word of every instruction lies under an assigned OP (R79), and an event has none, one lemma per constructor.
-/
namespace Sys2Proof
open Sys2Proof

/-- An OP of the opcode map that R79 does not list as unassigned. -/
def opAssigned (n : Nat) : Bool :=
  decide (n < 128) && !([0x00, 0x0F, 0x17, 0x1E, 0x1F, 0x37, 0x55, 0x56, 0x57, 0x5E, 0x5F, 0x66, 0x67, 0x6E, 0x6F, 0x77, 0x7F].contains n)
/-- What the fields add to a word. -/
def fieldSum : List (Nat × Nat) → Nat
  | [] => 0
  | f :: fs => f.1 * 2 ^ f.2 + fieldSum fs
theorem foldl_fields (fs : List (Nat × Nat)) : ∀ b : Nat, fs.foldl (fun x f => x + f.1 * 2 ^ f.2) b = b + fieldSum fs := by
  induction fs with
  | nil => intro b; rfl
  | cons f fs ih => intro b; rw [List.foldl_cons, ih, fieldSum]; omega
/-- Fields that stay within the lower 25 bits leave the OP alone. -/
theorem pack_assigned (b lo n : Nat) (fs : List (Nat × Nat)) (hb : b = n * 2 ^ 25 + lo) (hn : opAssigned n = true) (h : lo + fieldSum fs < 2 ^ 25) :
    opAssigned ((pack b fs).toNat / 2 ^ 25) = true := by
  have hn' : n < 128 := by simp only [opAssigned, Bool.and_eq_true, decide_eq_true_eq] at hn; exact hn.1
  have e : (pack b fs).toNat / 2 ^ 25 = n := by
    rw [pack, BitVec.toNat_ofNat, foldl_fields]; omega
  rw [e]; exact hn
theorem field_le (n k : Nat) (x : BitVec n) : x.toNat * 2 ^ k ≤ (2 ^ n - 1) * 2 ^ k :=
  Nat.mul_le_mul_right _ (Nat.le_sub_one_of_lt x.isLt)
namespace Laws.Assigned
/-- An instruction's word has an assigned OP; an event has no word. -/
def Statement (i : Instr) : Prop := if i.isWord then opAssigned ((encode i).toNat / 2 ^ 25) = true else encode i = 0#32

theorem nop : Statement .nop :=
  pack_assigned _ 0 1 _ rfl rfl (Nat.lt_of_le_of_lt (Nat.add_le_add_left (Nat.le_refl 0) 0) (by decide))
theorem bra o : Statement (.bra o) :=
  pack_assigned _ 0 2 _ rfl rfl (Nat.lt_of_le_of_lt (Nat.add_le_add_left (Nat.add_le_add (field_le _ 0 o) (Nat.le_refl 0)) 0) (by decide))
theorem bz a o : Statement (.bz a o) :=
  pack_assigned _ 0 3 _ rfl rfl (Nat.lt_of_le_of_lt (Nat.add_le_add_left (Nat.add_le_add (field_le _ 17 a) (Nat.add_le_add (field_le _ 0 o) (Nat.le_refl 0))) 0) (by decide))
theorem bnz a o : Statement (.bnz a o) :=
  pack_assigned _ 0 4 _ rfl rfl (Nat.lt_of_le_of_lt (Nat.add_le_add_left (Nat.add_le_add (field_le _ 17 a) (Nat.add_le_add (field_le _ 0 o) (Nat.le_refl 0))) 0) (by decide))
theorem brx a : Statement (.brx a) :=
  pack_assigned _ 0 5 _ rfl rfl (Nat.lt_of_le_of_lt (Nat.add_le_add_left (Nat.add_le_add (field_le _ 9 a) (Nat.le_refl 0)) 0) (by decide))
theorem call d i : Statement (.call d i) :=
  pack_assigned _ 0 6 _ rfl rfl (Nat.lt_of_le_of_lt (Nat.add_le_add_left (Nat.add_le_add (field_le _ 17 d) (Nat.add_le_add (field_le _ 0 i) (Nat.le_refl 0))) 0) (by decide))
theorem ret a : Statement (.ret a) :=
  pack_assigned _ 0 7 _ rfl rfl (Nat.lt_of_le_of_lt (Nat.add_le_add_left (Nat.add_le_add (field_le _ 9 a) (Nat.le_refl 0)) 0) (by decide))
theorem exit : Statement .exit :=
  pack_assigned _ 0 8 _ rfl rfl (Nat.lt_of_le_of_lt (Nat.add_le_add_left (Nat.le_refl 0) 0) (by decide))
theorem yield : Statement .yield :=
  pack_assigned _ 0 9 _ rfl rfl (Nat.lt_of_le_of_lt (Nat.add_le_add_left (Nat.le_refl 0) 0) (by decide))
theorem brk c : Statement (.brk c) :=
  pack_assigned _ 0 10 _ rfl rfl (Nat.lt_of_le_of_lt (Nat.add_le_add_left (Nat.add_le_add (field_le _ 0 c) (Nat.le_refl 0)) 0) (by decide))
theorem signal a n : Statement (.signal a n) :=
  pack_assigned _ 0 11 _ rfl rfl (Nat.lt_of_le_of_lt (Nat.add_le_add_left (Nat.add_le_add (field_le _ 9 a) (Nat.add_le_add (field_le _ 0 n) (Nat.le_refl 0))) 0) (by decide))
theorem clock d : Statement (.clock d) :=
  pack_assigned _ 0 12 _ rfl rfl (Nat.lt_of_le_of_lt (Nat.add_le_add_left (Nat.add_le_add (field_le _ 17 d) (Nat.le_refl 0)) 0) (by decide))
theorem sget d s : Statement (.sget d s) :=
  pack_assigned _ 0 13 _ rfl rfl (Nat.lt_of_le_of_lt (Nat.add_le_add_left (Nat.add_le_add (field_le _ 17 d) (Nat.add_le_add (field_le _ 7 s) (Nat.le_refl 0))) 0) (by decide))
theorem sset r s : Statement (.sset r s) :=
  pack_assigned _ 0 14 _ rfl rfl (Nat.lt_of_le_of_lt (Nat.add_le_add_left (Nat.add_le_add (field_le _ 17 r) (Nat.add_le_add (field_le _ 7 s) (Nat.le_refl 0))) 0) (by decide))
theorem ximmL i : Statement (.ximmL i) :=
  pack_assigned _ 0 16 _ rfl rfl (Nat.lt_of_le_of_lt (Nat.add_le_add_left (Nat.add_le_add (field_le _ 0 i) (Nat.le_refl 0)) 0) (by decide))
theorem ximmH i : Statement (.ximmH i) :=
  pack_assigned _ 0 17 _ rfl rfl (Nat.lt_of_le_of_lt (Nat.add_le_add_left (Nat.add_le_add (field_le _ 0 i) (Nat.le_refl 0)) 0) (by decide))
theorem life a b : Statement (.life a b) :=
  pack_assigned _ 0 18 _ rfl rfl (Nat.lt_of_le_of_lt (Nat.add_le_add_left (Nat.add_le_add (field_le _ 16 a) (Nat.add_le_add (field_le _ 0 b) (Nat.le_refl 0))) 0) (by decide))
theorem hold c m : Statement (.hold c m) :=
  pack_assigned _ 0 19 _ rfl rfl (Nat.lt_of_le_of_lt (Nat.add_le_add_left (Nat.add_le_add (field_le _ 3 c) (Nat.add_le_add (field_le _ 0 m) (Nat.le_refl 0))) 0) (by decide))
theorem holdRel : Statement .holdRel :=
  pack_assigned _ 64 19 _ rfl rfl (Nat.lt_of_le_of_lt (Nat.add_le_add_left (Nat.le_refl 0) 64) (by decide))
theorem scale b a : Statement (.scale b a) :=
  pack_assigned _ 0 20 _ rfl rfl (Nat.lt_of_le_of_lt (Nat.add_le_add_left (Nat.add_le_add (field_le _ 8 b) (Nat.add_le_add (field_le _ 0 a) (Nat.le_refl 0))) 0) (by decide))
theorem mod h a b c s t r : Statement (.mod h a b c s t r) :=
  pack_assigned _ 0 21 _ rfl rfl (Nat.lt_of_le_of_lt (Nat.add_le_add_left (Nat.add_le_add (field_le _ 16 h) (Nat.add_le_add (field_le _ 15 a) (Nat.add_le_add (field_le _ 11 b) (Nat.add_le_add (field_le _ 7 c) (Nat.add_le_add (field_le _ 4 s) (Nat.add_le_add (field_le _ 3 t) (Nat.add_le_add (field_le _ 0 r) (Nat.le_refl 0)))))))) 0) (by decide))
theorem sched d : Statement (.sched d) :=
  pack_assigned _ 0 22 _ rfl rfl (Nat.lt_of_le_of_lt (Nat.add_le_add_left (Nat.add_le_add (field_le _ 1 d) (Nat.le_refl 0)) 0) (by decide))
theorem schedYp d : Statement (.schedYp d) :=
  pack_assigned _ 1 22 _ rfl rfl (Nat.lt_of_le_of_lt (Nat.add_le_add_left (Nat.add_le_add (field_le _ 1 d) (Nat.le_refl 0)) 1) (by decide))
theorem mov d a : Statement (.mov d a) :=
  pack_assigned _ 0 24 _ rfl rfl (Nat.lt_of_le_of_lt (Nat.add_le_add_left (Nat.add_le_add (field_le _ 17 d) (Nat.add_le_add (field_le _ 9 a) (Nat.le_refl 0))) 0) (by decide))
theorem movi d i : Statement (.movi d i) :=
  pack_assigned _ 0 25 _ rfl rfl (Nat.lt_of_le_of_lt (Nat.add_le_add_left (Nat.add_le_add (field_le _ 17 d) (Nat.add_le_add (field_le _ 0 i) (Nat.le_refl 0))) 0) (by decide))
theorem movg d a : Statement (.movg d a) :=
  pack_assigned _ 0 26 _ rfl rfl (Nat.lt_of_le_of_lt (Nat.add_le_add_left (Nat.add_le_add (field_le _ 17 d) (Nat.add_le_add (field_le _ 9 a) (Nat.le_refl 0))) 0) (by decide))
theorem shape d a : Statement (.shape d a) :=
  pack_assigned _ 0 27 _ rfl rfl (Nat.lt_of_le_of_lt (Nat.add_le_add_left (Nat.add_le_add (field_le _ 17 d) (Nat.add_le_add (field_le _ 9 a) (Nat.le_refl 0))) 0) (by decide))
theorem spill a s : Statement (.spill a s) :=
  pack_assigned _ 0 28 _ rfl rfl (Nat.lt_of_le_of_lt (Nat.add_le_add_left (Nat.add_le_add (field_le _ 9 a) (Nat.add_le_add (field_le _ 0 s) (Nat.le_refl 0))) 0) (by decide))
theorem reload d s : Statement (.reload d s) :=
  pack_assigned _ 0 29 _ rfl rfl (Nat.lt_of_le_of_lt (Nat.add_le_add_left (Nat.add_le_add (field_le _ 17 d) (Nat.add_le_add (field_le _ 0 s) (Nat.le_refl 0))) 0) (by decide))
theorem iadd d a b v : Statement (.iadd d a b v) :=
  pack_assigned _ 0 32 _ rfl rfl (Nat.lt_of_le_of_lt (Nat.add_le_add_left (Nat.add_le_add (field_le _ 17 d) (Nat.add_le_add (field_le _ 9 a) (Nat.add_le_add (field_le _ 1 b) (Nat.add_le_add (field_le _ 0 v) (Nat.le_refl 0))))) 0) (by decide))
theorem isub d a b v : Statement (.isub d a b v) :=
  pack_assigned _ 0 33 _ rfl rfl (Nat.lt_of_le_of_lt (Nat.add_le_add_left (Nat.add_le_add (field_le _ 17 d) (Nat.add_le_add (field_le _ 9 a) (Nat.add_le_add (field_le _ 1 b) (Nat.add_le_add (field_le _ 0 v) (Nat.le_refl 0))))) 0) (by decide))
theorem imul d a b v : Statement (.imul d a b v) :=
  pack_assigned _ 0 34 _ rfl rfl (Nat.lt_of_le_of_lt (Nat.add_le_add_left (Nat.add_le_add (field_le _ 17 d) (Nat.add_le_add (field_le _ 9 a) (Nat.add_le_add (field_le _ 1 b) (Nat.add_le_add (field_le _ 0 v) (Nat.le_refl 0))))) 0) (by decide))
theorem imulh d a b v : Statement (.imulh d a b v) :=
  pack_assigned _ 0 35 _ rfl rfl (Nat.lt_of_le_of_lt (Nat.add_le_add_left (Nat.add_le_add (field_le _ 17 d) (Nat.add_le_add (field_le _ 9 a) (Nat.add_le_add (field_le _ 1 b) (Nat.add_le_add (field_le _ 0 v) (Nat.le_refl 0))))) 0) (by decide))
theorem imac d a b v : Statement (.imac d a b v) :=
  pack_assigned _ 0 36 _ rfl rfl (Nat.lt_of_le_of_lt (Nat.add_le_add_left (Nat.add_le_add (field_le _ 17 d) (Nat.add_le_add (field_le _ 9 a) (Nat.add_le_add (field_le _ 1 b) (Nat.add_le_add (field_le _ 0 v) (Nat.le_refl 0))))) 0) (by decide))
theorem iaddcCo d a b : Statement (.iaddcCo d a b) :=
  pack_assigned _ 0 37 _ rfl rfl (Nat.lt_of_le_of_lt (Nat.add_le_add_left (Nat.add_le_add (field_le _ 17 d) (Nat.add_le_add (field_le _ 9 a) (Nat.add_le_add (field_le _ 1 b) (Nat.le_refl 0)))) 0) (by decide))
theorem iaddcCi d a b : Statement (.iaddcCi d a b) :=
  pack_assigned _ 1 37 _ rfl rfl (Nat.lt_of_le_of_lt (Nat.add_le_add_left (Nat.add_le_add (field_le _ 17 d) (Nat.add_le_add (field_le _ 9 a) (Nat.add_le_add (field_le _ 1 b) (Nat.le_refl 0)))) 1) (by decide))
theorem lea d a b v : Statement (.lea d a b v) :=
  pack_assigned _ 0 38 _ rfl rfl (Nat.lt_of_le_of_lt (Nat.add_le_add_left (Nat.add_le_add (field_le _ 17 d) (Nat.add_le_add (field_le _ 9 a) (Nat.add_le_add (field_le _ 1 b) (Nat.add_le_add (field_le _ 0 v) (Nat.le_refl 0))))) 0) (by decide))
theorem iaddi d a i : Statement (.iaddi d a i) :=
  pack_assigned _ 0 39 _ rfl rfl (Nat.lt_of_le_of_lt (Nat.add_le_add_left (Nat.add_le_add (field_le _ 17 d) (Nat.add_le_add (field_le _ 9 a) (Nat.add_le_add (field_le _ 0 i) (Nat.le_refl 0)))) 0) (by decide))
theorem ishl d a b : Statement (.ishl d a b) :=
  pack_assigned _ 0 40 _ rfl rfl (Nat.lt_of_le_of_lt (Nat.add_le_add_left (Nat.add_le_add (field_le _ 17 d) (Nat.add_le_add (field_le _ 9 a) (Nat.add_le_add (field_le _ 1 b) (Nat.le_refl 0)))) 0) (by decide))
theorem ishr d a b v : Statement (.ishr d a b v) :=
  pack_assigned _ 0 41 _ rfl rfl (Nat.lt_of_le_of_lt (Nat.add_le_add_left (Nat.add_le_add (field_le _ 17 d) (Nat.add_le_add (field_le _ 9 a) (Nat.add_le_add (field_le _ 1 b) (Nat.add_le_add (field_le _ 0 v) (Nat.le_refl 0))))) 0) (by decide))
theorem and d a b : Statement (.and d a b) :=
  pack_assigned _ 0 42 _ rfl rfl (Nat.lt_of_le_of_lt (Nat.add_le_add_left (Nat.add_le_add (field_le _ 17 d) (Nat.add_le_add (field_le _ 9 a) (Nat.add_le_add (field_le _ 1 b) (Nat.le_refl 0)))) 0) (by decide))
theorem or d a b : Statement (.or d a b) :=
  pack_assigned _ 0 43 _ rfl rfl (Nat.lt_of_le_of_lt (Nat.add_le_add_left (Nat.add_le_add (field_le _ 17 d) (Nat.add_le_add (field_le _ 9 a) (Nat.add_le_add (field_le _ 1 b) (Nat.le_refl 0)))) 0) (by decide))
theorem xor d a b : Statement (.xor d a b) :=
  pack_assigned _ 0 44 _ rfl rfl (Nat.lt_of_le_of_lt (Nat.add_le_add_left (Nat.add_le_add (field_le _ 17 d) (Nat.add_le_add (field_le _ 9 a) (Nat.add_le_add (field_le _ 1 b) (Nat.le_refl 0)))) 0) (by decide))
theorem andn d a b : Statement (.andn d a b) :=
  pack_assigned _ 0 45 _ rfl rfl (Nat.lt_of_le_of_lt (Nat.add_le_add_left (Nat.add_le_add (field_le _ 17 d) (Nat.add_le_add (field_le _ 9 a) (Nat.add_le_add (field_le _ 1 b) (Nat.le_refl 0)))) 0) (by decide))
theorem logi d a f i : Statement (.logi d a f i) :=
  pack_assigned _ 0 46 _ rfl rfl (Nat.lt_of_le_of_lt (Nat.add_le_add_left (Nat.add_le_add (field_le _ 17 d) (Nat.add_le_add (field_le _ 9 a) (Nat.add_le_add (field_le _ 7 f) (Nat.add_le_add (field_le _ 0 i) (Nat.le_refl 0))))) 0) (by decide))
theorem shi d a k n : Statement (.shi d a k n) :=
  pack_assigned _ 0 47 _ rfl rfl (Nat.lt_of_le_of_lt (Nat.add_le_add_left (Nat.add_le_add (field_le _ 17 d) (Nat.add_le_add (field_le _ 9 a) (Nat.add_le_add (field_le _ 7 k) (Nat.add_le_add (field_le _ 0 n) (Nat.le_refl 0))))) 0) (by decide))
theorem imin d a b v : Statement (.imin d a b v) :=
  pack_assigned _ 0 48 _ rfl rfl (Nat.lt_of_le_of_lt (Nat.add_le_add_left (Nat.add_le_add (field_le _ 17 d) (Nat.add_le_add (field_le _ 9 a) (Nat.add_le_add (field_le _ 1 b) (Nat.add_le_add (field_le _ 0 v) (Nat.le_refl 0))))) 0) (by decide))
theorem imax d a b v : Statement (.imax d a b v) :=
  pack_assigned _ 0 49 _ rfl rfl (Nat.lt_of_le_of_lt (Nat.add_le_add_left (Nat.add_le_add (field_le _ 17 d) (Nat.add_le_add (field_le _ 9 a) (Nat.add_le_add (field_le _ 1 b) (Nat.add_le_add (field_le _ 0 v) (Nat.le_refl 0))))) 0) (by decide))
theorem icmp d a b v : Statement (.icmp d a b v) :=
  pack_assigned _ 0 50 _ rfl rfl (Nat.lt_of_le_of_lt (Nat.add_le_add_left (Nat.add_le_add (field_le _ 17 d) (Nat.add_le_add (field_le _ 9 a) (Nat.add_le_add (field_le _ 1 b) (Nat.add_le_add (field_le _ 0 v) (Nat.le_refl 0))))) 0) (by decide))
theorem sel d a b : Statement (.sel d a b) :=
  pack_assigned _ 0 51 _ rfl rfl (Nat.lt_of_le_of_lt (Nat.add_le_add_left (Nat.add_le_add (field_le _ 17 d) (Nat.add_le_add (field_le _ 9 a) (Nat.add_le_add (field_le _ 1 b) (Nat.le_refl 0)))) 0) (by decide))
theorem bfe d a b v : Statement (.bfe d a b v) :=
  pack_assigned _ 0 52 _ rfl rfl (Nat.lt_of_le_of_lt (Nat.add_le_add_left (Nat.add_le_add (field_le _ 17 d) (Nat.add_le_add (field_le _ 9 a) (Nat.add_le_add (field_le _ 1 b) (Nat.add_le_add (field_le _ 0 v) (Nat.le_refl 0))))) 0) (by decide))
theorem bfi d a b : Statement (.bfi d a b) :=
  pack_assigned _ 0 53 _ rfl rfl (Nat.lt_of_le_of_lt (Nat.add_le_add_left (Nat.add_le_add (field_le _ 17 d) (Nat.add_le_add (field_le _ 9 a) (Nat.add_le_add (field_le _ 1 b) (Nat.le_refl 0)))) 0) (by decide))
theorem iunaPopc d a : Statement (.iunaPopc d a) :=
  pack_assigned _ 0 54 _ rfl rfl (Nat.lt_of_le_of_lt (Nat.add_le_add_left (Nat.add_le_add (field_le _ 17 d) (Nat.add_le_add (field_le _ 9 a) (Nat.le_refl 0))) 0) (by decide))
theorem iunaClz d a : Statement (.iunaClz d a) :=
  pack_assigned _ 2 54 _ rfl rfl (Nat.lt_of_le_of_lt (Nat.add_le_add_left (Nat.add_le_add (field_le _ 17 d) (Nat.add_le_add (field_le _ 9 a) (Nat.le_refl 0))) 2) (by decide))
theorem iunaBrev d a : Statement (.iunaBrev d a) :=
  pack_assigned _ 4 54 _ rfl rfl (Nat.lt_of_le_of_lt (Nat.add_le_add_left (Nat.add_le_add (field_le _ 17 d) (Nat.add_le_add (field_le _ 9 a) (Nat.le_refl 0))) 4) (by decide))
theorem iunaIabs d a : Statement (.iunaIabs d a) :=
  pack_assigned _ 6 54 _ rfl rfl (Nat.lt_of_le_of_lt (Nat.add_le_add_left (Nat.add_le_add (field_le _ 17 d) (Nat.add_le_add (field_le _ 9 a) (Nat.le_refl 0))) 6) (by decide))
theorem iunaIneg d a : Statement (.iunaIneg d a) :=
  pack_assigned _ 8 54 _ rfl rfl (Nat.lt_of_le_of_lt (Nat.add_le_add_left (Nat.add_le_add (field_le _ 17 d) (Nat.add_le_add (field_le _ 9 a) (Nat.le_refl 0))) 8) (by decide))
theorem lgetIdx d a b : Statement (.lgetIdx d a b) :=
  pack_assigned _ 0 56 _ rfl rfl (Nat.lt_of_le_of_lt (Nat.add_le_add_left (Nat.add_le_add (field_le _ 17 d) (Nat.add_le_add (field_le _ 9 a) (Nat.add_le_add (field_le _ 1 b) (Nat.le_refl 0)))) 0) (by decide))
theorem lgetRot d a b : Statement (.lgetRot d a b) :=
  pack_assigned _ 1 56 _ rfl rfl (Nat.lt_of_le_of_lt (Nat.add_le_add_left (Nat.add_le_add (field_le _ 17 d) (Nat.add_le_add (field_le _ 9 a) (Nat.add_le_add (field_le _ 1 b) (Nat.le_refl 0)))) 1) (by decide))
theorem pollEvery d a : Statement (.pollEvery d a) :=
  pack_assigned _ 0 57 _ rfl rfl (Nat.lt_of_le_of_lt (Nat.add_le_add_left (Nat.add_le_add (field_le _ 17 d) (Nat.add_le_add (field_le _ 9 a) (Nat.le_refl 0))) 0) (by decide))
theorem pollSome d a : Statement (.pollSome d a) :=
  pack_assigned _ 2 57 _ rfl rfl (Nat.lt_of_le_of_lt (Nat.add_le_add_left (Nat.add_le_add (field_le _ 17 d) (Nat.add_le_add (field_le _ 9 a) (Nat.le_refl 0))) 2) (by decide))
theorem pollMask d a : Statement (.pollMask d a) :=
  pack_assigned _ 4 57 _ rfl rfl (Nat.lt_of_le_of_lt (Nat.add_le_add_left (Nat.add_le_add (field_le _ 17 d) (Nat.add_le_add (field_le _ 9 a) (Nat.le_refl 0))) 4) (by decide))
theorem pollSame d a : Statement (.pollSame d a) :=
  pack_assigned _ 6 57 _ rfl rfl (Nat.lt_of_le_of_lt (Nat.add_le_add_left (Nat.add_le_add (field_le _ 17 d) (Nat.add_le_add (field_le _ 9 a) (Nat.le_refl 0))) 6) (by decide))
theorem pollCount d a : Statement (.pollCount d a) :=
  pack_assigned _ 8 57 _ rfl rfl (Nat.lt_of_le_of_lt (Nat.add_le_add_left (Nat.add_le_add (field_le _ 17 d) (Nat.add_le_add (field_le _ 9 a) (Nat.le_refl 0))) 8) (by decide))
theorem wredAdd d a : Statement (.wredAdd d a) :=
  pack_assigned _ 0 58 _ rfl rfl (Nat.lt_of_le_of_lt (Nat.add_le_add_left (Nat.add_le_add (field_le _ 17 d) (Nat.add_le_add (field_le _ 9 a) (Nat.le_refl 0))) 0) (by decide))
theorem wredMin d a v : Statement (.wredMin d a v) :=
  pack_assigned _ 2 58 _ rfl rfl (Nat.lt_of_le_of_lt (Nat.add_le_add_left (Nat.add_le_add (field_le _ 17 d) (Nat.add_le_add (field_le _ 9 a) (Nat.add_le_add (field_le _ 0 v) (Nat.le_refl 0)))) 2) (by decide))
theorem wredMax d a v : Statement (.wredMax d a v) :=
  pack_assigned _ 4 58 _ rfl rfl (Nat.lt_of_le_of_lt (Nat.add_le_add_left (Nat.add_le_add (field_le _ 17 d) (Nat.add_le_add (field_le _ 9 a) (Nat.add_le_add (field_le _ 0 v) (Nat.le_refl 0)))) 4) (by decide))
theorem wredAnd d a : Statement (.wredAnd d a) :=
  pack_assigned _ 6 58 _ rfl rfl (Nat.lt_of_le_of_lt (Nat.add_le_add_left (Nat.add_le_add (field_le _ 17 d) (Nat.add_le_add (field_le _ 9 a) (Nat.le_refl 0))) 6) (by decide))
theorem wredOr d a : Statement (.wredOr d a) :=
  pack_assigned _ 8 58 _ rfl rfl (Nat.lt_of_le_of_lt (Nat.add_le_add_left (Nat.add_le_add (field_le _ 17 d) (Nat.add_le_add (field_le _ 9 a) (Nat.le_refl 0))) 8) (by decide))
theorem wredXor d a : Statement (.wredXor d a) :=
  pack_assigned _ 10 58 _ rfl rfl (Nat.lt_of_le_of_lt (Nat.add_le_add_left (Nat.add_le_add (field_le _ 17 d) (Nat.add_le_add (field_le _ 9 a) (Nat.le_refl 0))) 10) (by decide))
theorem wredfFadd d a : Statement (.wredfFadd d a) :=
  pack_assigned _ 0 59 _ rfl rfl (Nat.lt_of_le_of_lt (Nat.add_le_add_left (Nat.add_le_add (field_le _ 17 d) (Nat.add_le_add (field_le _ 9 a) (Nat.le_refl 0))) 0) (by decide))
theorem wredfFmin d a : Statement (.wredfFmin d a) :=
  pack_assigned _ 2 59 _ rfl rfl (Nat.lt_of_le_of_lt (Nat.add_le_add_left (Nat.add_le_add (field_le _ 17 d) (Nat.add_le_add (field_le _ 9 a) (Nat.le_refl 0))) 2) (by decide))
theorem wredfFmax d a : Statement (.wredfFmax d a) :=
  pack_assigned _ 4 59 _ rfl rfl (Nat.lt_of_le_of_lt (Nat.add_le_add_left (Nat.add_le_add (field_le _ 17 d) (Nat.add_le_add (field_le _ 9 a) (Nat.le_refl 0))) 4) (by decide))
theorem scanIadd d a v : Statement (.scanIadd d a v) :=
  pack_assigned _ 0 60 _ rfl rfl (Nat.lt_of_le_of_lt (Nat.add_le_add_left (Nat.add_le_add (field_le _ 17 d) (Nat.add_le_add (field_le _ 9 a) (Nat.add_le_add (field_le _ 0 v) (Nat.le_refl 0)))) 0) (by decide))
theorem scanFadd d a v : Statement (.scanFadd d a v) :=
  pack_assigned _ 2 60 _ rfl rfl (Nat.lt_of_le_of_lt (Nat.add_le_add_left (Nat.add_le_add (field_le _ 17 d) (Nat.add_le_add (field_le _ 9 a) (Nat.add_le_add (field_le _ 0 v) (Nat.le_refl 0)))) 2) (by decide))
theorem scanImaxS d a v : Statement (.scanImaxS d a v) :=
  pack_assigned _ 4 60 _ rfl rfl (Nat.lt_of_le_of_lt (Nat.add_le_add_left (Nat.add_le_add (field_le _ 17 d) (Nat.add_le_add (field_le _ 9 a) (Nat.add_le_add (field_le _ 0 v) (Nat.le_refl 0)))) 4) (by decide))
theorem scanImaxN d a v : Statement (.scanImaxN d a v) :=
  pack_assigned _ 6 60 _ rfl rfl (Nat.lt_of_le_of_lt (Nat.add_le_add_left (Nat.add_le_add (field_le _ 17 d) (Nat.add_le_add (field_le _ 9 a) (Nat.add_le_add (field_le _ 0 v) (Nat.le_refl 0)))) 6) (by decide))
theorem scanIminS d a v : Statement (.scanIminS d a v) :=
  pack_assigned _ 8 60 _ rfl rfl (Nat.lt_of_le_of_lt (Nat.add_le_add_left (Nat.add_le_add (field_le _ 17 d) (Nat.add_le_add (field_le _ 9 a) (Nat.add_le_add (field_le _ 0 v) (Nat.le_refl 0)))) 8) (by decide))
theorem scanIminN d a v : Statement (.scanIminN d a v) :=
  pack_assigned _ 10 60 _ rfl rfl (Nat.lt_of_le_of_lt (Nat.add_le_add_left (Nat.add_le_add (field_le _ 17 d) (Nat.add_le_add (field_le _ 9 a) (Nat.add_le_add (field_le _ 0 v) (Nat.le_refl 0)))) 10) (by decide))
theorem scanOr d a v : Statement (.scanOr d a v) :=
  pack_assigned _ 12 60 _ rfl rfl (Nat.lt_of_le_of_lt (Nat.add_le_add_left (Nat.add_le_add (field_le _ 17 d) (Nat.add_le_add (field_le _ 9 a) (Nat.add_le_add (field_le _ 0 v) (Nat.le_refl 0)))) 12) (by decide))
theorem keymPeer d a f : Statement (.keymPeer d a f) :=
  pack_assigned _ 0 61 _ rfl rfl (Nat.lt_of_le_of_lt (Nat.add_le_add_left (Nat.add_le_add (field_le _ 17 d) (Nat.add_le_add (field_le _ 9 a) (Nat.add_le_add (field_le _ 1 f) (Nat.le_refl 0)))) 0) (by decide))
theorem keymWhole d a f : Statement (.keymWhole d a f) :=
  pack_assigned _ 1 61 _ rfl rfl (Nat.lt_of_le_of_lt (Nat.add_le_add_left (Nat.add_le_add (field_le _ 17 d) (Nat.add_le_add (field_le _ 9 a) (Nat.add_le_add (field_le _ 1 f) (Nat.le_refl 0)))) 1) (by decide))
theorem tile s : Statement (.tile s) :=
  pack_assigned _ 0 62 _ rfl rfl (Nat.lt_of_le_of_lt (Nat.add_le_add_left (Nat.add_le_add (field_le _ 0 s) (Nat.le_refl 0)) 0) (by decide))
theorem headFlag d : Statement (.headFlag d) :=
  pack_assigned _ 0 63 _ rfl rfl (Nat.lt_of_le_of_lt (Nat.add_le_add_left (Nat.add_le_add (field_le _ 17 d) (Nat.le_refl 0)) 0) (by decide))
theorem headNum d : Statement (.headNum d) :=
  pack_assigned _ 1 63 _ rfl rfl (Nat.lt_of_le_of_lt (Nat.add_le_add_left (Nat.add_le_add (field_le _ 17 d) (Nat.le_refl 0)) 1) (by decide))
theorem fadd d a b : Statement (.fadd d a b) :=
  pack_assigned _ 0 64 _ rfl rfl (Nat.lt_of_le_of_lt (Nat.add_le_add_left (Nat.add_le_add (field_le _ 17 d) (Nat.add_le_add (field_le _ 9 a) (Nat.add_le_add (field_le _ 1 b) (Nat.le_refl 0)))) 0) (by decide))
theorem fsub d a b : Statement (.fsub d a b) :=
  pack_assigned _ 0 65 _ rfl rfl (Nat.lt_of_le_of_lt (Nat.add_le_add_left (Nat.add_le_add (field_le _ 17 d) (Nat.add_le_add (field_le _ 9 a) (Nat.add_le_add (field_le _ 1 b) (Nat.le_refl 0)))) 0) (by decide))
theorem fmul d a b : Statement (.fmul d a b) :=
  pack_assigned _ 0 66 _ rfl rfl (Nat.lt_of_le_of_lt (Nat.add_le_add_left (Nat.add_le_add (field_le _ 17 d) (Nat.add_le_add (field_le _ 9 a) (Nat.add_le_add (field_le _ 1 b) (Nat.le_refl 0)))) 0) (by decide))
theorem fmaA d a b : Statement (.fmaA d a b) :=
  pack_assigned _ 0 67 _ rfl rfl (Nat.lt_of_le_of_lt (Nat.add_le_add_left (Nat.add_le_add (field_le _ 17 d) (Nat.add_le_add (field_le _ 9 a) (Nat.add_le_add (field_le _ 1 b) (Nat.le_refl 0)))) 0) (by decide))
theorem fmaL d a b : Statement (.fmaL d a b) :=
  pack_assigned _ 1 67 _ rfl rfl (Nat.lt_of_le_of_lt (Nat.add_le_add_left (Nat.add_le_add (field_le _ 17 d) (Nat.add_le_add (field_le _ 9 a) (Nat.add_le_add (field_le _ 1 b) (Nat.le_refl 0)))) 1) (by decide))
theorem fmin d a b : Statement (.fmin d a b) :=
  pack_assigned _ 0 68 _ rfl rfl (Nat.lt_of_le_of_lt (Nat.add_le_add_left (Nat.add_le_add (field_le _ 17 d) (Nat.add_le_add (field_le _ 9 a) (Nat.add_le_add (field_le _ 1 b) (Nat.le_refl 0)))) 0) (by decide))
theorem fmax d a b : Statement (.fmax d a b) :=
  pack_assigned _ 0 69 _ rfl rfl (Nat.lt_of_le_of_lt (Nat.add_le_add_left (Nat.add_le_add (field_le _ 17 d) (Nat.add_le_add (field_le _ 9 a) (Nat.add_le_add (field_le _ 1 b) (Nat.le_refl 0)))) 0) (by decide))
theorem fcmp d a b v : Statement (.fcmp d a b v) :=
  pack_assigned _ 0 70 _ rfl rfl (Nat.lt_of_le_of_lt (Nat.add_le_add_left (Nat.add_le_add (field_le _ 17 d) (Nat.add_le_add (field_le _ 9 a) (Nat.add_le_add (field_le _ 1 b) (Nat.add_le_add (field_le _ 0 v) (Nat.le_refl 0))))) 0) (by decide))
theorem fclass d a : Statement (.fclass d a) :=
  pack_assigned _ 0 71 _ rfl rfl (Nat.lt_of_le_of_lt (Nat.add_le_add_left (Nat.add_le_add (field_le _ 17 d) (Nat.add_le_add (field_le _ 9 a) (Nat.le_refl 0))) 0) (by decide))
theorem frnd d a : Statement (.frnd d a) :=
  pack_assigned _ 0 72 _ rfl rfl (Nat.lt_of_le_of_lt (Nat.add_le_add_left (Nat.add_le_add (field_le _ 17 d) (Nat.add_le_add (field_le _ 9 a) (Nat.le_refl 0))) 0) (by decide))
theorem cvt d a t f : Statement (.cvt d a t f) :=
  pack_assigned _ 0 73 _ rfl rfl (Nat.lt_of_le_of_lt (Nat.add_le_add_left (Nat.add_le_add (field_le _ 17 d) (Nat.add_le_add (field_le _ 9 a) (Nat.add_le_add (field_le _ 5 t) (Nat.add_le_add (field_le _ 1 f) (Nat.le_refl 0))))) 0) (by decide))
theorem hadd2 d a b v : Statement (.hadd2 d a b v) :=
  pack_assigned _ 0 74 _ rfl rfl (Nat.lt_of_le_of_lt (Nat.add_le_add_left (Nat.add_le_add (field_le _ 17 d) (Nat.add_le_add (field_le _ 9 a) (Nat.add_le_add (field_le _ 1 b) (Nat.add_le_add (field_le _ 0 v) (Nat.le_refl 0))))) 0) (by decide))
theorem hmul2 d a b v : Statement (.hmul2 d a b v) :=
  pack_assigned _ 0 75 _ rfl rfl (Nat.lt_of_le_of_lt (Nat.add_le_add_left (Nat.add_le_add (field_le _ 17 d) (Nat.add_le_add (field_le _ 9 a) (Nat.add_le_add (field_le _ 1 b) (Nat.add_le_add (field_le _ 0 v) (Nat.le_refl 0))))) 0) (by decide))
theorem hfma2 d a b v : Statement (.hfma2 d a b v) :=
  pack_assigned _ 0 76 _ rfl rfl (Nat.lt_of_le_of_lt (Nat.add_le_add_left (Nat.add_le_add (field_le _ 17 d) (Nat.add_le_add (field_le _ 9 a) (Nat.add_le_add (field_le _ 1 b) (Nat.add_le_add (field_le _ 0 v) (Nat.le_refl 0))))) 0) (by decide))
theorem funaFabs d a : Statement (.funaFabs d a) :=
  pack_assigned _ 0 77 _ rfl rfl (Nat.lt_of_le_of_lt (Nat.add_le_add_left (Nat.add_le_add (field_le _ 17 d) (Nat.add_le_add (field_le _ 9 a) (Nat.le_refl 0))) 0) (by decide))
theorem funaFneg d a : Statement (.funaFneg d a) :=
  pack_assigned _ 2 77 _ rfl rfl (Nat.lt_of_le_of_lt (Nat.add_le_add_left (Nat.add_le_add (field_le _ 17 d) (Nat.add_le_add (field_le _ 9 a) (Nat.le_refl 0))) 2) (by decide))
theorem dot2 d a b v : Statement (.dot2 d a b v) :=
  pack_assigned _ 31457280 78 _ rfl rfl (Nat.lt_of_le_of_lt (Nat.add_le_add_left (Nat.add_le_add (field_le _ 17 d) (Nat.add_le_add (field_le _ 9 a) (Nat.add_le_add (field_le _ 1 b) (Nat.add_le_add (field_le _ 0 v) (Nat.le_refl 0))))) 31457280) (by decide))
theorem dot8 s d a b v : Statement (.dot8 s d a b v) :=
  pack_assigned _ 6291456 79 _ rfl rfl (Nat.lt_of_le_of_lt (Nat.add_le_add_left (Nat.add_le_add (field_le _ 23 s) (Nat.add_le_add (field_le _ 17 d) (Nat.add_le_add (field_le _ 9 a) (Nat.add_le_add (field_le _ 1 b) (Nat.add_le_add (field_le _ 0 v) (Nat.le_refl 0)))))) 6291456) (by decide))
theorem dot4 s d a b v : Statement (.dot4 s d a b v) :=
  pack_assigned _ 6291456 80 _ rfl rfl (Nat.lt_of_le_of_lt (Nat.add_le_add_left (Nat.add_le_add (field_le _ 23 s) (Nat.add_le_add (field_le _ 17 d) (Nat.add_le_add (field_le _ 9 a) (Nat.add_le_add (field_le _ 1 b) (Nat.add_le_add (field_le _ 0 v) (Nat.le_refl 0)))))) 6291456) (by decide))
theorem sfuRcp d a : Statement (.sfuRcp d a) :=
  pack_assigned _ 0 81 _ rfl rfl (Nat.lt_of_le_of_lt (Nat.add_le_add_left (Nat.add_le_add (field_le _ 17 d) (Nat.add_le_add (field_le _ 9 a) (Nat.le_refl 0))) 0) (by decide))
theorem sfuRsq d a : Statement (.sfuRsq d a) :=
  pack_assigned _ 2 81 _ rfl rfl (Nat.lt_of_le_of_lt (Nat.add_le_add_left (Nat.add_le_add (field_le _ 17 d) (Nat.add_le_add (field_le _ 9 a) (Nat.le_refl 0))) 2) (by decide))
theorem sfuSqrt d a : Statement (.sfuSqrt d a) :=
  pack_assigned _ 4 81 _ rfl rfl (Nat.lt_of_le_of_lt (Nat.add_le_add_left (Nat.add_le_add (field_le _ 17 d) (Nat.add_le_add (field_le _ 9 a) (Nat.le_refl 0))) 4) (by decide))
theorem sfuExp2 d a : Statement (.sfuExp2 d a) :=
  pack_assigned _ 6 81 _ rfl rfl (Nat.lt_of_le_of_lt (Nat.add_le_add_left (Nat.add_le_add (field_le _ 17 d) (Nat.add_le_add (field_le _ 9 a) (Nat.le_refl 0))) 6) (by decide))
theorem sfuLog2 d a : Statement (.sfuLog2 d a) :=
  pack_assigned _ 8 81 _ rfl rfl (Nat.lt_of_le_of_lt (Nat.add_le_add_left (Nat.add_le_add (field_le _ 17 d) (Nat.add_le_add (field_le _ 9 a) (Nat.le_refl 0))) 8) (by decide))
theorem sfuSinp d a : Statement (.sfuSinp d a) :=
  pack_assigned _ 10 81 _ rfl rfl (Nat.lt_of_le_of_lt (Nat.add_le_add_left (Nat.add_le_add (field_le _ 17 d) (Nat.add_le_add (field_le _ 9 a) (Nat.le_refl 0))) 10) (by decide))
theorem sfuCosp d a : Statement (.sfuCosp d a) :=
  pack_assigned _ 12 81 _ rfl rfl (Nat.lt_of_le_of_lt (Nat.add_le_add_left (Nat.add_le_add (field_le _ 17 d) (Nat.add_le_add (field_le _ 9 a) (Nat.le_refl 0))) 12) (by decide))
theorem sfuTanh d a : Statement (.sfuTanh d a) :=
  pack_assigned _ 14 81 _ rfl rfl (Nat.lt_of_le_of_lt (Nat.add_le_add_left (Nat.add_le_add (field_le _ 17 d) (Nat.add_le_add (field_le _ 9 a) (Nat.le_refl 0))) 14) (by decide))
theorem exs d a b : Statement (.exs d a b) :=
  pack_assigned _ 0 82 _ rfl rfl (Nat.lt_of_le_of_lt (Nat.add_le_add_left (Nat.add_le_add (field_le _ 17 d) (Nat.add_le_add (field_le _ 9 a) (Nat.add_le_add (field_le _ 1 b) (Nat.le_refl 0)))) 0) (by decide))
theorem smxa d a b : Statement (.smxa d a b) :=
  pack_assigned _ 0 83 _ rfl rfl (Nat.lt_of_le_of_lt (Nat.add_le_add_left (Nat.add_le_add (field_le _ 17 d) (Nat.add_le_add (field_le _ 9 a) (Nat.add_le_add (field_le _ 1 b) (Nat.le_refl 0)))) 0) (by decide))
theorem smxm d a : Statement (.smxm d a) :=
  pack_assigned _ 0 84 _ rfl rfl (Nat.lt_of_le_of_lt (Nat.add_le_add_left (Nat.add_le_add (field_le _ 17 d) (Nat.add_le_add (field_le _ 9 a) (Nat.le_refl 0))) 0) (by decide))
theorem ld d a p s o x c : Statement (.ld d a p s o x c) :=
  pack_assigned _ 0 88 _ rfl rfl (Nat.lt_of_le_of_lt (Nat.add_le_add_left (Nat.add_le_add (field_le _ 17 d) (Nat.add_le_add (field_le _ 9 a) (Nat.add_le_add (field_le _ 7 p) (Nat.add_le_add (field_le _ 4 s) (Nat.add_le_add (field_le _ 2 o) (Nat.add_le_add (field_le _ 1 x) (Nat.add_le_add (field_le _ 0 c) (Nat.le_refl 0)))))))) 0) (by decide))
theorem st d a p s o c : Statement (.st d a p s o c) :=
  pack_assigned _ 0 89 _ rfl rfl (Nat.lt_of_le_of_lt (Nat.add_le_add_left (Nat.add_le_add (field_le _ 17 d) (Nat.add_le_add (field_le _ 9 a) (Nat.add_le_add (field_le _ 7 p) (Nat.add_le_add (field_le _ 4 s) (Nat.add_le_add (field_le _ 2 o) (Nat.add_le_add (field_le _ 0 c) (Nat.le_refl 0))))))) 0) (by decide))
theorem ldp d a s c : Statement (.ldp d a s c) :=
  pack_assigned _ 0 90 _ rfl rfl (Nat.lt_of_le_of_lt (Nat.add_le_add_left (Nat.add_le_add (field_le _ 17 d) (Nat.add_le_add (field_le _ 9 a) (Nat.add_le_add (field_le _ 4 s) (Nat.add_le_add (field_le _ 0 c) (Nat.le_refl 0))))) 0) (by decide))
theorem stp d a s c : Statement (.stp d a s c) :=
  pack_assigned _ 0 91 _ rfl rfl (Nat.lt_of_le_of_lt (Nat.add_le_add_left (Nat.add_le_add (field_le _ 17 d) (Nat.add_le_add (field_le _ 9 a) (Nat.add_le_add (field_le _ 4 s) (Nat.add_le_add (field_le _ 0 c) (Nat.le_refl 0))))) 0) (by decide))
theorem atom v a p o r w : Statement (.atom v a p o r w) :=
  pack_assigned _ 0 92 _ rfl rfl (Nat.lt_of_le_of_lt (Nat.add_le_add_left (Nat.add_le_add (field_le _ 17 v) (Nat.add_le_add (field_le _ 9 a) (Nat.add_le_add (field_le _ 7 p) (Nat.add_le_add (field_le _ 3 o) (Nat.add_le_add (field_le _ 1 r) (Nat.add_le_add (field_le _ 0 w) (Nat.le_refl 0))))))) 0) (by decide))
theorem atomn v a p o r w : Statement (.atomn v a p o r w) :=
  pack_assigned _ 0 93 _ rfl rfl (Nat.lt_of_le_of_lt (Nat.add_le_add_left (Nat.add_le_add (field_le _ 17 v) (Nat.add_le_add (field_le _ 9 a) (Nat.add_le_add (field_le _ 7 p) (Nat.add_le_add (field_le _ 3 o) (Nat.add_le_add (field_le _ 1 r) (Nat.add_le_add (field_le _ 0 w) (Nat.le_refl 0))))))) 0) (by decide))
theorem fence k s : Statement (.fence k s) :=
  pack_assigned _ 0 96 _ rfl rfl (Nat.lt_of_le_of_lt (Nat.add_le_add_left (Nat.add_le_add (field_le _ 3 k) (Nat.add_le_add (field_le _ 0 s) (Nat.le_refl 0))) 0) (by decide))
theorem stc d a p o : Statement (.stc d a p o) :=
  pack_assigned _ 48 97 _ rfl rfl (Nat.lt_of_le_of_lt (Nat.add_le_add_left (Nat.add_le_add (field_le _ 17 d) (Nat.add_le_add (field_le _ 9 a) (Nat.add_le_add (field_le _ 7 p) (Nat.add_le_add (field_le _ 2 o) (Nat.le_refl 0))))) 48) (by decide))
theorem waitv v a p c o : Statement (.waitv v a p c o) :=
  pack_assigned _ 0 98 _ rfl rfl (Nat.lt_of_le_of_lt (Nat.add_le_add_left (Nat.add_le_add (field_le _ 17 v) (Nat.add_le_add (field_le _ 9 a) (Nat.add_le_add (field_le _ 7 p) (Nat.add_le_add (field_le _ 3 c) (Nat.add_le_add (field_le _ 1 o) (Nat.le_refl 0)))))) 0) (by decide))
theorem smap r a t m : Statement (.smap r a t m) :=
  pack_assigned _ 0 99 _ rfl rfl (Nat.lt_of_le_of_lt (Nat.add_le_add_left (Nat.add_le_add (field_le _ 17 r) (Nat.add_le_add (field_le _ 9 a) (Nat.add_le_add (field_le _ 3 t) (Nat.add_le_add (field_le _ 0 m) (Nat.le_refl 0))))) 0) (by decide))
theorem sunmap l e : Statement (.sunmap l e) :=
  pack_assigned _ 0 100 _ rfl rfl (Nat.lt_of_le_of_lt (Nat.add_le_add_left (Nat.add_le_add (field_le _ 8 l) (Nat.add_le_add (field_le _ 0 e) (Nat.le_refl 0))) 0) (by decide))
theorem sflush l e : Statement (.sflush l e) :=
  pack_assigned _ 0 101 _ rfl rfl (Nat.lt_of_le_of_lt (Nat.add_le_add_left (Nat.add_le_add (field_le _ 8 l) (Nat.add_le_add (field_le _ 0 e) (Nat.le_refl 0))) 0) (by decide))
theorem xcopyG2s r a t : Statement (.xcopyG2s r a t) :=
  pack_assigned _ 0 104 _ rfl rfl (Nat.lt_of_le_of_lt (Nat.add_le_add_left (Nat.add_le_add (field_le _ 17 r) (Nat.add_le_add (field_le _ 9 a) (Nat.add_le_add (field_le _ 3 t) (Nat.le_refl 0)))) 0) (by decide))
theorem xcopyS2g r a t : Statement (.xcopyS2g r a t) :=
  pack_assigned _ 1 104 _ rfl rfl (Nat.lt_of_le_of_lt (Nat.add_le_add_left (Nat.add_le_add (field_le _ 17 r) (Nat.add_le_add (field_le _ 9 a) (Nat.add_le_add (field_le _ 3 t) (Nat.le_refl 0)))) 1) (by decide))
theorem xcopyS2c r a t : Statement (.xcopyS2c r a t) :=
  pack_assigned _ 2 104 _ rfl rfl (Nat.lt_of_le_of_lt (Nat.add_le_add_left (Nat.add_le_add (field_le _ 17 r) (Nat.add_le_add (field_le _ 9 a) (Nat.add_le_add (field_le _ 3 t) (Nat.le_refl 0)))) 2) (by decide))
theorem xcopyMcast r a t : Statement (.xcopyMcast r a t) :=
  pack_assigned _ 3 104 _ rfl rfl (Nat.lt_of_le_of_lt (Nat.add_le_add_left (Nat.add_le_add (field_le _ 17 r) (Nat.add_le_add (field_le _ 9 a) (Nat.add_le_add (field_le _ 3 t) (Nat.le_refl 0)))) 3) (by decide))
theorem xcopyRemote r a t : Statement (.xcopyRemote r a t) :=
  pack_assigned _ 4 104 _ rfl rfl (Nat.lt_of_le_of_lt (Nat.add_le_add_left (Nat.add_le_add (field_le _ 17 r) (Nat.add_le_add (field_le _ 9 a) (Nat.add_le_add (field_le _ 3 t) (Nat.le_refl 0)))) 4) (by decide))
theorem xloadw r a t s : Statement (.xloadw r a t s) :=
  pack_assigned _ 0 105 _ rfl rfl (Nat.lt_of_le_of_lt (Nat.add_le_add_left (Nat.add_le_add (field_le _ 17 r) (Nat.add_le_add (field_le _ 9 a) (Nat.add_le_add (field_le _ 3 t) (Nat.add_le_add (field_le _ 0 s) (Nat.le_refl 0))))) 0) (by decide))
theorem rfence : Statement .rfence :=
  pack_assigned _ 0 106 _ rfl rfl (Nat.lt_of_le_of_lt (Nat.add_le_add_left (Nat.le_refl 0) 0) (by decide))
theorem twaitAll d a : Statement (.twaitAll d a) :=
  pack_assigned _ 0 107 _ rfl rfl (Nat.lt_of_le_of_lt (Nat.add_le_add_left (Nat.add_le_add (field_le _ 17 d) (Nat.add_le_add (field_le _ 9 a) (Nat.le_refl 0))) 0) (by decide))
theorem twaitAny d a : Statement (.twaitAny d a) :=
  pack_assigned _ 1 107 _ rfl rfl (Nat.lt_of_le_of_lt (Nat.add_le_add_left (Nat.add_le_add (field_le _ 17 d) (Nat.add_le_add (field_le _ 9 a) (Nat.le_refl 0))) 1) (by decide))
theorem tfirst d a : Statement (.tfirst d a) :=
  pack_assigned _ 0 108 _ rfl rfl (Nat.lt_of_le_of_lt (Nat.add_le_add_left (Nat.add_le_add (field_le _ 17 d) (Nat.add_le_add (field_le _ 9 a) (Nat.le_refl 0))) 0) (by decide))
theorem tack a : Statement (.tack a) :=
  pack_assigned _ 0 109 _ rfl rfl (Nat.lt_of_le_of_lt (Nat.add_le_add_left (Nat.add_le_add (field_le _ 9 a) (Nat.le_refl 0)) 0) (by decide))
theorem mloop n f a c m : Statement (.mloop n f a c m) :=
  pack_assigned _ 0 112 _ rfl rfl (Nat.lt_of_le_of_lt (Nat.add_le_add_left (Nat.add_le_add (field_le _ 21 n) (Nat.add_le_add (field_le _ 17 f) (Nat.add_le_add (field_le _ 9 a) (Nat.add_le_add (field_le _ 1 c) (Nat.add_le_add (field_le _ 0 m) (Nat.le_refl 0)))))) 0) (by decide))
theorem mzero n : Statement (.mzero n) :=
  pack_assigned _ 0 113 _ rfl rfl (Nat.lt_of_le_of_lt (Nat.add_le_add_left (Nat.add_le_add (field_le _ 21 n) (Nat.le_refl 0)) 0) (by decide))
theorem mscale n a : Statement (.mscale n a) :=
  pack_assigned _ 0 114 _ rfl rfl (Nat.lt_of_le_of_lt (Nat.add_le_add_left (Nat.add_le_add (field_le _ 21 n) (Nat.add_le_add (field_le _ 9 a) (Nat.le_refl 0))) 0) (by decide))
theorem mout n f a c : Statement (.mout n f a c) :=
  pack_assigned _ 0 115 _ rfl rfl (Nat.lt_of_le_of_lt (Nat.add_le_add_left (Nat.add_le_add (field_le _ 21 n) (Nat.add_le_add (field_le _ 17 f) (Nat.add_le_add (field_le _ 9 a) (Nat.add_le_add (field_le _ 1 c) (Nat.le_refl 0))))) 0) (by decide))
theorem mget d a s : Statement (.mget d a s) :=
  pack_assigned _ 0 116 _ rfl rfl (Nat.lt_of_le_of_lt (Nat.add_le_add_left (Nat.add_le_add (field_le _ 17 d) (Nat.add_le_add (field_le _ 9 a) (Nat.add_le_add (field_le _ 1 s) (Nat.le_refl 0)))) 0) (by decide))
theorem mput r a s : Statement (.mput r a s) :=
  pack_assigned _ 0 117 _ rfl rfl (Nat.lt_of_le_of_lt (Nat.add_le_add_left (Nat.add_le_add (field_le _ 17 r) (Nat.add_le_add (field_le _ 9 a) (Nat.add_le_add (field_le _ 1 s) (Nat.le_refl 0)))) 0) (by decide))
theorem mperturb a b : Statement (.mperturb a b) :=
  pack_assigned _ 0 118 _ rfl rfl (Nat.lt_of_le_of_lt (Nat.add_le_add_left (Nat.add_le_add (field_le _ 9 a) (Nat.add_le_add (field_le _ 1 b) (Nat.le_refl 0))) 0) (by decide))
theorem barArrive i : Statement (.barArrive i) :=
  pack_assigned _ 0 120 _ rfl rfl (Nat.lt_of_le_of_lt (Nat.add_le_add_left (Nat.add_le_add (field_le _ 0 i) (Nat.le_refl 0)) 0) (by decide))
theorem barWait i : Statement (.barWait i) :=
  pack_assigned _ 16 120 _ rfl rfl (Nat.lt_of_le_of_lt (Nat.add_le_add_left (Nat.add_le_add (field_le _ 0 i) (Nat.le_refl 0)) 16) (by decide))
theorem barSync i : Statement (.barSync i) :=
  pack_assigned _ 32 120 _ rfl rfl (Nat.lt_of_le_of_lt (Nat.add_le_add_left (Nat.add_le_add (field_le _ 0 i) (Nat.le_refl 0)) 32) (by decide))
theorem barExpect a i : Statement (.barExpect a i) :=
  pack_assigned _ 48 120 _ rfl rfl (Nat.lt_of_le_of_lt (Nat.add_le_add_left (Nat.add_le_add (field_le _ 9 a) (Nat.add_le_add (field_le _ 0 i) (Nat.le_refl 0))) 48) (by decide))
theorem gbar : Statement .gbar :=
  pack_assigned _ 0 121 _ rfl rfl (Nat.lt_of_le_of_lt (Nat.add_le_add_left (Nat.le_refl 0) 0) (by decide))
theorem spawn d a : Statement (.spawn d a) :=
  pack_assigned _ 0 122 _ rfl rfl (Nat.lt_of_le_of_lt (Nat.add_le_add_left (Nat.add_le_add (field_le _ 17 d) (Nat.add_le_add (field_le _ 9 a) (Nat.le_refl 0))) 0) (by decide))
theorem joinc d a : Statement (.joinc d a) :=
  pack_assigned _ 0 123 _ rfl rfl (Nat.lt_of_le_of_lt (Nat.add_le_add_left (Nat.add_le_add (field_le _ 17 d) (Nat.add_le_add (field_le _ 9 a) (Nat.le_refl 0))) 0) (by decide))
theorem rgn : Statement .rgn :=
  pack_assigned _ 0 124 _ rfl rfl (Nat.lt_of_le_of_lt (Nat.add_le_add_left (Nat.le_refl 0) 0) (by decide))
theorem commitX : Statement .commitX :=
  pack_assigned _ 0 125 _ rfl rfl (Nat.lt_of_le_of_lt (Nat.add_le_add_left (Nat.le_refl 0) 0) (by decide))
theorem commitB o : Statement (.commitB o) :=
  pack_assigned _ 8388608 125 _ rfl rfl (Nat.lt_of_le_of_lt (Nat.add_le_add_left (Nat.add_le_add (field_le _ 0 o) (Nat.le_refl 0)) 8388608) (by decide))
theorem commitR o : Statement (.commitR o) :=
  pack_assigned _ 16777216 125 _ rfl rfl (Nat.lt_of_le_of_lt (Nat.add_le_add_left (Nat.add_le_add (field_le _ 0 o) (Nat.le_refl 0)) 16777216) (by decide))
theorem commitP : Statement .commitP :=
  pack_assigned _ 25165824 125 _ rfl rfl (Nat.lt_of_le_of_lt (Nat.add_le_add_left (Nat.le_refl 0) 25165824) (by decide))
theorem ptest d a : Statement (.ptest d a) :=
  pack_assigned _ 0 126 _ rfl rfl (Nat.lt_of_le_of_lt (Nat.add_le_add_left (Nat.add_le_add (field_le _ 17 d) (Nat.add_le_add (field_le _ 9 a) (Nat.le_refl 0))) 0) (by decide))
theorem pinfoCause d a : Statement (.pinfoCause d a) :=
  pack_assigned _ 2 126 _ rfl rfl (Nat.lt_of_le_of_lt (Nat.add_le_add_left (Nat.add_le_add (field_le _ 17 d) (Nat.add_le_add (field_le _ 9 a) (Nat.le_refl 0))) 2) (by decide))
theorem pinfoEntry d a : Statement (.pinfoEntry d a) :=
  pack_assigned _ 4 126 _ rfl rfl (Nat.lt_of_le_of_lt (Nat.add_le_add_left (Nat.add_le_add (field_le _ 17 d) (Nat.add_le_add (field_le _ 9 a) (Nat.le_refl 0))) 4) (by decide))
theorem pfill d a : Statement (.pfill d a) :=
  pack_assigned _ 6 126 _ rfl rfl (Nat.lt_of_le_of_lt (Nat.add_le_add_left (Nat.add_le_add (field_le _ 17 d) (Nat.add_le_add (field_le _ 9 a) (Nat.le_refl 0))) 6) (by decide))
theorem pset d a : Statement (.pset d a) :=
  pack_assigned _ 8 126 _ rfl rfl (Nat.lt_of_le_of_lt (Nat.add_le_add_left (Nat.add_le_add (field_le _ 17 d) (Nat.add_le_add (field_le _ 9 a) (Nat.le_refl 0))) 8) (by decide))
theorem suppressedWord x0 : Statement (.suppressedWord x0) := rfl
theorem switchedIssue : Statement .switchedIssue := rfl
theorem resultArrival x0 : Statement (.resultArrival x0) := rfl
theorem instructionFetch : Statement .instructionFetch := rfl
theorem fetchRetry : Statement .fetchRetry := rfl
theorem translationWalk x0 x1 x2 x3 : Statement (.translationWalk x0 x1 x2 x3) := rfl
theorem storeDrain x0 x1 : Statement (.storeDrain x0 x1) := rfl
theorem writeApply x0 x1 : Statement (.writeApply x0 x1) := rfl
theorem stashLineFill x0 x1 x2 : Statement (.stashLineFill x0 x1 x2) := rfl
theorem smapExecute x0 : Statement (.smapExecute x0) := rfl
theorem copyRecordFetch x0 : Statement (.copyRecordFetch x0) := rfl
theorem copySector x0 : Statement (.copySector x0) := rfl
theorem copyTagDone x0 : Statement (.copyTagDone x0) := rfl
theorem mloopStep x0 : Statement (.mloopStep x0) := rfl
theorem mloopComplete x0 : Statement (.mloopComplete x0) := rfl
theorem matrixTagDone x0 : Statement (.matrixTagDone x0) := rfl
theorem slotAccess x0 : Statement (.slotAccess x0) := rfl
theorem moutExecute x0 : Statement (.moutExecute x0) := rfl
theorem waitvTest x0 : Statement (.waitvTest x0) := rfl
theorem waitvTimeout x0 : Statement (.waitvTimeout x0) := rfl
theorem commitRReplay x0 : Statement (.commitRReplay x0) := rfl
theorem commitPMatch x0 : Statement (.commitPMatch x0) := rfl
theorem commitPTimeout x0 : Statement (.commitPTimeout x0) := rfl
theorem stcFlagSend x0 : Statement (.stcFlagSend x0) := rfl
theorem countedWriteArrival x0 : Statement (.countedWriteArrival x0) := rfl
theorem flagArrival x0 : Statement (.flagArrival x0) := rfl
theorem flagWriteRetry x0 : Statement (.flagWriteRetry x0) := rfl
theorem flagHoldExpiry x0 : Statement (.flagHoldExpiry x0) := rfl
theorem lossNoticeArrival x0 : Statement (.lossNoticeArrival x0) := rfl
theorem packetAgeExpiry x0 : Statement (.packetAgeExpiry x0) := rfl
theorem remoteAccessArrival x0 : Statement (.remoteAccessArrival x0) := rfl
theorem remoteResponseArrival x0 x1 : Statement (.remoteResponseArrival x0 x1) := rfl
theorem remoteResponseTimeout x0 : Statement (.remoteResponseTimeout x0) := rfl
theorem hostResponseArrival x0 x1 : Statement (.hostResponseArrival x0 x1) := rfl
theorem launchPacketTake x0 : Statement (.launchPacketTake x0) := rfl
theorem launchReadRetry x0 : Statement (.launchReadRetry x0) := rfl
theorem sizeClassSelect x0 : Statement (.sizeClassSelect x0) := rfl
theorem launchAdmit x0 : Statement (.launchAdmit x0) := rfl
theorem clusterPlace x0 x1 x2 : Statement (.clusterPlace x0 x1 x2) := rfl
theorem workgroupEnd x0 : Statement (.workgroupEnd x0) := rfl
theorem launchComplete x0 : Statement (.launchComplete x0) := rfl
theorem taskStart x0 : Statement (.taskStart x0) := rfl
theorem taskRingRefill x0 x1 : Statement (.taskRingRefill x0 x1) := rfl
theorem taskAutojoin x0 : Statement (.taskAutojoin x0) := rfl
theorem taskAutojoinRetry x0 : Statement (.taskAutojoinRetry x0) := rfl
theorem preemptDecision x0 : Statement (.preemptDecision x0) := rfl
theorem drainBoundExpiry x0 : Statement (.drainBoundExpiry x0) := rfl
theorem warpSave x0 : Statement (.warpSave x0) := rfl
theorem unitSave x0 : Statement (.unitSave x0) := rfl
theorem unitFlush x0 : Statement (.unitFlush x0) := rfl
theorem unitResume x0 x1 x2 : Statement (.unitResume x0 x1 x2) := rfl
theorem pageHomeMove x0 x1 x2 : Statement (.pageHomeMove x0 x1 x2) := rfl
theorem squeegeeScrub x0 : Statement (.squeegeeScrub x0) := rfl
theorem contextKill x0 x1 : Statement (.contextKill x0 x1) := rfl
theorem censusUpdate : Statement .censusUpdate := rfl
theorem resourceFailure x0 : Statement (.resourceFailure x0) := rfl
theorem planeFailure x0 : Statement (.planeFailure x0) := rfl
theorem thermalThrottle : Statement .thermalThrottle := rfl
theorem thermalTrip : Statement .thermalTrip := rfl
theorem coldReset : Statement .coldReset := rfl
theorem portLinkDown x0 : Statement (.portLinkDown x0) := rfl
theorem qwrite x0 x1 x2 : Statement (.qwrite x0 x1 x2) := rfl
theorem qctlEnSet x0 x1 x2 : Statement (.qctlEnSet x0 x1 x2) := rfl
theorem qctlEnClear x0 x1 x2 : Statement (.qctlEnClear x0 x1 x2) := rfl
theorem qctlDrain x0 x1 x2 : Statement (.qctlDrain x0 x1 x2) := rfl
theorem flr x0 : Statement (.flr x0) := rfl
theorem ctlsemAcq x0 : Statement (.ctlsemAcq x0) := rfl
theorem ctlsemRel x0 : Statement (.ctlsemRel x0) := rfl
theorem mbdoor x0 : Statement (.mbdoor x0) := rfl
theorem create x0 x1 : Statement (.create x0 x1) := rfl
theorem destroy x0 x1 : Statement (.destroy x0 x1) := rfl
theorem setroot x0 x1 : Statement (.setroot x0 x1) := rfl
theorem inval x0 x1 : Statement (.inval x0 x1) := rfl
theorem grant x0 x1 : Statement (.grant x0 x1) := rfl
theorem share x0 x1 : Statement (.share x0 x1) := rfl
theorem channel x0 x1 : Statement (.channel x0 x1) := rfl
theorem vfassign x0 x1 : Statement (.vfassign x0 x1) := rfl
theorem isolate x0 x1 : Statement (.isolate x0 x1) := rfl
theorem fwupdate x0 x1 : Statement (.fwupdate x0 x1) := rfl
theorem drain x0 x1 : Statement (.drain x0 x1) := rfl
theorem reset x0 x1 : Statement (.reset x0 x1) := rfl
theorem ectrWrite x0 x1 x2 x3 : Statement (.ectrWrite x0 x1 x2 x3) := rfl
theorem srdoneWrite x0 x1 x2 : Statement (.srdoneWrite x0 x1 x2) := rfl
theorem injctlArm x0 x1 x2 : Statement (.injctlArm x0 x1 x2) := rfl
theorem injctlDisarm x0 x1 x2 : Statement (.injctlDisarm x0 x1 x2) := rfl
theorem registerWrite x0 x1 x2 : Statement (.registerWrite x0 x1 x2) := rfl
theorem bar2Read x0 x1 x2 : Statement (.bar2Read x0 x1 x2) := rfl
theorem bar2Write x0 x1 x2 : Statement (.bar2Write x0 x1 x2) := rfl
theorem hostCxlMemAccess x0 x1 x2 x3 : Statement (.hostCxlMemAccess x0 x1 x2 x3) := rfl
theorem censusRead x0 x1 : Statement (.censusRead x0 x1) := rfl
theorem getVersion : Statement .getVersion := rfl
theorem getCapabilities : Statement .getCapabilities := rfl
theorem negotiateAlgorithms : Statement .negotiateAlgorithms := rfl
theorem getDigests : Statement .getDigests := rfl
theorem getCertificate x0 x1 : Statement (.getCertificate x0 x1) := rfl
theorem challenge x0 : Statement (.challenge x0) := rfl
theorem getMeasurements x0 x1 : Statement (.getMeasurements x0 x1) := rfl
theorem unsupportedRequest x0 : Statement (.unsupportedRequest x0) := rfl
theorem pldmSensorRead x0 : Statement (.pldmSensorRead x0) := rfl
theorem fruEepromRead x0 x1 : Statement (.fruEepromRead x0 x1) := rfl
theorem vfEnable x0 x1 : Statement (.vfEnable x0 x1) := rfl
theorem powerLoss : Statement .powerLoss := rfl
theorem backInvalidateResponse x0 : Statement (.backInvalidateResponse x0) := rfl
theorem globalObservationResponse x0 x1 : Statement (.globalObservationResponse x0 x1) := rfl

end Laws.Assigned
end Sys2Proof
end

