-- ==== Sys2Proof/Laws/Stays.lean ====
section
/-!
SUPPORT. What an issue without a result leaves of its warp.
-/
namespace Sys2Proof.Machine
open Sys2Proof

theorem Warp.finish_eq (w : Warp) (f : Form) (n : Nat) (hd : f.dsts = []) :
    ∃ h sw d, (w.dueAt f n).afterInstr = { w with hints := h, switched := sw, divCount := d } := by
  have : w.dueAt f n = w := by simp [Warp.dueAt, hd]
  rw [this]; exact w.afterInstr_eq

theorem Warp.valueOf_cab_congr {v w : Warp} (h : v.cab = w.cab) (c : Code) (hc : isCab c = true) (l : Nat) : v.valueOf c l = w.valueOf c l := by
  simp [Warp.valueOf, Warp.rawSource_cab hc, h]

theorem map_invalid (l : List Slot) (k : Nat) : ((l.map fun x => ({ x with valid := 0#32, pend := none } : Slot)).getD k Slot.fresh).valid = 0#32 := by
  rw [List.getD_eq_getElem?_getD, List.getElem?_map]
  cases l[k]? <;> rfl

/-- The warp as the body finds it, compared with the warp that issued. -/
theorem Warp.begun_stays (w : Warp) (f : Form) (act : Mask) (pc : DWord) :
    (∀ l < 32, (w.begun f act pc).pcOf l = if act.has l then pc + 4#64 else w.pcOf l) ∧
    (∀ c, isCab c = true → (w.begun f act pc).shapeOf c = w.shapeOf c ∧ ∀ l < 32, (w.begun f act pc).valueOf c l = w.valueOf c l) ∧
    (8 ≤ w.hints.lifePos → (w.begun f act pc).cab = w.cab) ∧
    (if f.point then ∀ k, ((w.begun f act pc).drawer.getD k Slot.fresh).valid = 0#32 else (w.begun f act pc).drawer = w.drawer) ∧
    (if f.point then ∀ k, ((w.begun f act pc).latch.getD k Slot.fresh).valid = 0#32 else (w.begun f act pc).latch = w.latch) ∧
    ((w.begun f act pc).fpmode = w.fpmode ∧ (w.begun f act pc).fpstat = w.fpstat ∧ (w.begun f act pc).chan = w.chan ∧ (w.begun f act pc).tsize = w.tsize) ∧
    (w.begun f act pc).spill = w.spill ∧ (w.begun f act pc).region = w.region ∧ (w.begun f act pc).exited = w.exited ∧ (w.begun f act pc).ref = w.ref ∧
    (w.begun f act pc).status = w.status ∧ (w.begun f act pc).isTask = w.isTask := by
  obtain ⟨cab, e, hl, mk, mk8⟩ := w.markDead_eq f
  have hb : (w.begun f act pc) = if f.point then (((w.markDead f).advance act pc)).deschedule else { (w.markDead f).advance act pc with yieldCount := ((w.markDead f).advance act pc).yieldCount + 1 } := by
    unfold Warp.begun; rfl
  have ha : ∃ d m, (w.markDead f).advance act pc = { w with cab := cab, divCount := d, switchMark := m, atPoint := false, pcs := lanes32 fun l => if act.has l then pc + 4#64 else w.pcOf l } := by
    rw [e]
    unfold Warp.advance Warp.setPcs Warp.account
    split
    · exact ⟨_, _, rfl⟩
    · split
      · exact ⟨_, _, rfl⟩
      · exact ⟨_, _, rfl⟩
  obtain ⟨dv, m, ha⟩ := ha
  rw [ha] at hb
  have hcab : (w.begun f act pc).cab = cab := by rw [hb]; split <;> rfl
  have hpcs : (w.begun f act pc).pcs = lanes32 fun l => if act.has l then pc + 4#64 else w.pcOf l := by rw [hb]; split <;> rfl
  refine ⟨?_, ?_, ?_, ?_, ?_, ?_, ?_, ?_, ?_, ?_, ?_, ?_⟩
  · intro l hl; unfold Warp.pcOf; rw [hpcs, lanes32_getD, if_pos hl]; rfl
  · intro c hc; simp only [Warp.shapeOf, Warp.valueOf, Warp.rawSource_cab hc, hcab, (mk _).1, (mk _).2]; simp
  · intro h; rw [hcab, mk8 h]
  · rw [hb]; split
    · intro k; exact map_invalid _ _
    · rfl
  · rw [hb]; split
    · intro k; exact map_invalid _ _
    · rfl
  all_goals (rw [hb]; split <;> (try exact ⟨rfl, rfl, rfl, rfl⟩) <;> rfl)

/-- An instruction without a result whose body changes only the PCs, the region, the partition register and the like. -/
theorem State.Issues.stays {s : State} {i : Instr} {f : Form} {act : Mask} {pc : DWord} (h : s.Issues i f act pc)
    {refuse stall : Bool} (hr : refuse = false) (hs : stall = false) (body : State → Iss → List Opd → State) (hd : f.dsts = [])
    (next : Nat → DWord) (r : Region) (rs : List DWord)
    (hb : body (s.modFocus fun w => w.begun f act pc) (s.warp.iss act pc) (f.reads.map fun c => (s.warp.rawSource c).1) =
      (s.modFocus fun w => w.begun f act pc).modFocus fun w => { w.setPcs act next with region := r, retStack := rs }) :
    State.Stays s (s.issue i f refuse stall body) act next f.point ∧ (s.issue i f refuse stall body).warp.region = r ∧
      (s.issue i f refuse stall body).warp.retStack = rs ∧ (s.issue i f refuse stall body).warp.exited = s.warp.exited := by
  rw [h.run hr hs, hb]
  obtain ⟨b1, b2, b3, b4, b5, b6, b7, b8, b9, b10, b11, b12⟩ := s.warp.begun_stays f act pc
  obtain ⟨hh, sw, d, e⟩ := ({ (s.warp.begun f act pc).setPcs act next with region := r, retStack := rs } : Warp).finish_eq f (s.ctr s.myDie + f.latAt s.tick) hd
  simp only [State.modFocus]
  rw [e]
  refine ⟨⟨⟨?_, ?_, ?_, ?_, ?_, ?_⟩, ?_, rfl⟩, rfl, rfl, b9⟩
  · intro l hl
    simp only [Warp.pcOf, Warp.setPcs] at b1 ⊢
    rw [lanes32_getD, if_pos hl, b1 l hl]
    split <;> rfl
  · intro c hc
    have k := b2 c hc
    simp only [Warp.shapeOf, Warp.valueOf, Warp.rawSource_cab hc] at k ⊢
    exact k
  · intro h8 c _
    show ((s.warp.begun f act pc).cab.getD _ _).dead = _
    rw [b3 h8]
  · exact b4
  · exact b5
  · exact b6
  · exact b7

theorem setPcs_id (w : Warp) (act : Mask) (pc : DWord) (h : ∀ l < 32, w.pcOf l = if act.has l then pc + 4#64 else w.pcOf l) (hp : w.pcs = lanes32 fun l => w.pcOf l) :
    ({ w.setPcs act (fun _ => pc + 4#64) with region := w.region, retStack := w.retStack } : Warp) = w := by
  have : (w.setPcs act fun _ => pc + 4#64).pcs = w.pcs := by
    rw [hp]
    unfold Warp.setPcs lanes32
    apply List.map_congr_left
    intro l hl
    rw [← h l (by simpa using hl)]
  cases w
  simp only [Warp.setPcs] at this ⊢
  rw [this]

theorem Warp.begun_pcs (w : Warp) (f : Form) (act : Mask) (pc : DWord) : (w.begun f act pc).pcs = lanes32 fun l => (w.begun f act pc).pcOf l := by
  have : ∃ g : Nat → DWord, (w.begun f act pc).pcs = lanes32 g := by
    refine ⟨fun l => if act.has l then pc + 4#64 else ({ (w.markDead f).account with atPoint := false } : Warp).pcOf l, ?_⟩
    unfold Warp.begun
    split <;> rfl
  obtain ⟨g, e⟩ := this
  rw [e]
  unfold lanes32
  apply List.map_congr_left
  intro l hl
  have hl : l < 32 := by simpa using hl
  unfold Warp.pcOf
  rw [e, lanes32_getD, if_pos hl]

theorem begun_keep (w : Warp) (f : Form) (act : Mask) (pc : DWord) :
    ({ (w.begun f act pc).setPcs act (fun _ => pc + 4#64) with region := (w.begun f act pc).region, retStack := (w.begun f act pc).retStack } : Warp) = w.begun f act pc := by
  apply setPcs_id
  · intro l hl
    have := (w.begun_stays f act pc).1 l hl
    rw [this]
    split <;> rfl
  · exact w.begun_pcs f act pc

/-- A branch target is the PC plus four times the signed offset (R80). -/
theorem branchTarget_eq (n : Nat) (pc : DWord) (o : BitVec n) : branchTarget pc o = pc + BitVec.ofInt 64 (4 * o.toInt) := by
  unfold branchTarget
  rw [show o.signExtend 64 = BitVec.ofInt 64 o.toInt from rfl, BitVec.ofInt_mul]
  rfl

end Sys2Proof.Machine
end

