-- ==== Sys2Proof/Tests/Start.lean ====
section
/-!
SUPPORT. The small state that the tests start from, and the checks that show that a state meets the premises of the statements.
-/
namespace Sys2Proof.Test
open Sys2Proof Sys2Proof.Machine

/-- One warp of 32 lanes at 0x8000 on core 0, with every drawer entry and latch valid, context 1 live and frame 0 mapped at 0. -/
def start : State :=
  let s := { State.reset.withFetchWord 32 0 with inputs := [] }
  s.modFocus fun w => { w with
    drawer := List.replicate 8 { lanes := splat Val.zero, shape := .u, valid := fullMask, pend := none }
    latch := List.replicate 3 { lanes := splat Val.zero, shape := .u, valid := fullMask, pend := none } }
/-- The PC it stands at. -/
def pc0 : DWord := 0x8000#64
/-- d0. -/
def d0 : Code := 0xF0#8
/-- The state with a cabinet register changed in every lane. -/
def withReg (s : State) (r : Nat) (v : Val) : State :=
  s.modFocus fun w => { w with cab := updAt w.cab r fun x => { x with lanes := splat v } }
/-- The state with its context 1 changed. -/
def withCtx (s : State) (f : Ctx → Ctx) : State := s.modCtx 1 f
/-- The state with its workgroup changed. -/
def withWg (s : State) (f : Wg → Wg) : State := s.modWg 2 f
/-- The state with its launch changed. -/
def withLaunch (s : State) (f : Launch → Launch) : State := s.modLaunch 1 f

/-! ## Premises, computed -/

/-- A code can be read in a mask. -/
def readableB (w : Warp) (act : Mask) (c : Code) : Bool :=
  act &&& ~~~ (w.rawSource c).2 == 0#32 && (!isCab c || (decide (c.toNat < w.n) && !(w.cab.getD c.toNat Reg.fresh).dead))
/-- Nothing stops an issue. -/
def issuesB (s : State) (i : Instr) (f : Form) (act : Mask) (pc : DWord) : Bool :=
  s.warp.group == some (act, pc) && s.warp.mayIssue && i.wf && !s.warp.blocked (f.reads ++ f.late) f.dsts
    && f.reads.all (fun c => readableB s.warp (if f.wide.contains c then fullMask else act) c) && s.svc.wordErrors.isEmpty
theorem readable_of {w : Warp} {act : Mask} {c : Code} (h : readableB w act c = true) : w.readable act c := by
  simp only [readableB, Bool.and_eq_true, beq_iff_eq, Bool.or_eq_true, Bool.not_eq_true', decide_eq_true_eq] at h
  refine ⟨h.1, fun hc => ?_⟩
  rcases h.2 with k | k
  · rw [hc] at k; cases k
  · exact k
theorem issues_of {s : State} {i : Instr} {f : Form} {act : Mask} {pc : DWord} (h : issuesB s i f act pc = true) : s.Issues i f act pc := by
  simp only [issuesB, Bool.and_eq_true, beq_iff_eq, Bool.not_eq_true', List.all_eq_true, List.isEmpty_iff] at h
  obtain ⟨⟨⟨⟨⟨h1, h2⟩, h3⟩, h4⟩, h5⟩, h6⟩ := h
  exact ⟨h1, h2, h3, h4, fun c hc => readable_of (h5 c hc), h6⟩
theorem takes_drawer (act : Mask) : ∀ (rs : List ResWord) (w : Warp), (∀ r ∈ rs, isCab r.dst = false) → Warp.takesAll act rs w
  | [], _, _ => trivial
  | r :: rs, w, h => by
    refine ⟨fun hc => ?_, takes_drawer act rs _ fun x hx => h x (by simp [hx])⟩
    rw [h r (by simp)] at hc
    cases hc
/-- Each instruction issues at `s` with nothing to stop it, and results that go to the drawer may be written. -/
def Met (s : State) (xs : List (Instr × Form)) : Prop :=
  ∀ x ∈ xs, s.Issues x.1 x.2 fullMask pc0 ∧ ∀ rs : List ResWord, (∀ r ∈ rs, isCab r.dst = false) → ∀ w, Warp.takesAll fullMask rs w
theorem met_of {s : State} {xs : List (Instr × Form)} (h : xs.all (fun x => issuesB s x.1 x.2 fullMask pc0) = true) : Met s xs :=
  fun x hx => ⟨issues_of (List.all_eq_true.mp h x hx), fun rs hr w => takes_drawer _ rs w hr⟩
/-- No stash line is mapped. -/
def unmappedB (s : State) : Bool := s.wgs.all fun g => g.smap.all fun m => !m.valid
theorem unmapped_of {s : State} (h : unmappedB s = true) : ∀ pa, s.locate pa = none := by
  intro pa
  unfold State.locate
  rw [List.findSome?_eq_none_iff]
  intro g hg
  have k := List.all_eq_true.mp h g hg
  split
  · rfl
  · rw [List.findSome?_eq_none_iff]
    intro e he
    split
    · rename_i m hm
      have := List.all_eq_true.mp k m (List.mem_of_getElem? hm)
      simp only [Bool.not_eq_true'] at this
      simp [this]
    · rfl
/-- A read of device memory meets nothing but memory. -/
def plainB (s : State) : Bool := s.svc.errors.isEmpty && unmappedB s && !(s.ctx s.myTag).injArm && s.drained s.warp.ref
  && (s.cores.all fun c => c.storeQ.all fun e => e.upto == 0) && !s.slack
theorem plain_of {s : State} (h : plainB s = true) : s.Plain := by
  simp only [plainB, Bool.and_eq_true, List.isEmpty_iff, Bool.not_eq_true'] at h
  exact ⟨h.1.1.1.1.1, unmapped_of h.1.1.1.1.2, h.1.1.1.2, h.1.1.2, h.1.2, h.2⟩
/-- A lane's address leads to device memory. -/
def isMem : Way → Bool
  | .mem _ (_ :: _) => true
  | _ => false
theorem isMem_of {w : Way} (h : isMem w = true) : ∃ sp p ps, w = .mem sp (p :: ps) := by
  cases w with
  | mem sp ps => cases ps with
    | nil => cases h
    | cons p ps => exact ⟨sp, p, ps, rfl⟩
  | _ => cases h
theorem allMem_of {q : List LaneAcc} (h : q.all (fun a => isMem a.way) = true) : ∀ a ∈ q, ∃ sp p ps, a.way = .mem sp (p :: ps) :=
  fun a ha => isMem_of (List.all_eq_true.mp h a ha)
/-- A private address leads to device memory. -/
def isArea : Way → Bool
  | .mem 1 (_ :: _) => true
  | _ => false
theorem isArea_of {w : Way} (h : isArea w = true) : ∃ pa n ps, w = .mem 1 ((pa, n) :: ps) := by
  unfold isArea at h
  split at h
  · exact ⟨_, _, _, rfl⟩
  · cases h
/-- A pair is its parts. -/
theorem pair_eq {α β : Type} {x : α × β} {b : β} (h : x.2 = b) : x = (x.1, b) := by rw [← h]
theorem fresh_shaped : DevMem.fresh.shaped := by
  refine ⟨by decide, ?_, by decide⟩
  intro l hl; cases hl

end Sys2Proof.Test
end

