-- ==== Sys2Proof/Tests/Slice0.lean ====
section
/-!
SUPPORT. Small tests: terms that WellFormed refuses, words written out from the tables of R74 to R90, single effects with values worked out from the rules, and for
every obligation a state and operands that meet its premises.
-/
namespace Sys2Proof.Test
open Sys2Proof Sys2Proof.Machine
-- one theorem at a time: their kernel evaluations side by side would take too much memory
set_option Elab.async false

/-! ## Ill-formed terms, one for each check (R76, R82 to R89) -/

theorem test_wf_source : (Instr.iadd 0#8 0xFE#8 0#8 0#1).wf = false := by decide
theorem test_wf_destination : (Instr.iadd 0xFC#8 0#8 0#8 0#1).wf = false := by decide
theorem test_wf_pair : (Instr.lea 1#8 2#8 0#8 0#1).wf = false ∧ (Instr.lea 2#8 0xF7#8 0#8 0#1).wf = false ∧ (Instr.lea 0xFB#8 2#8 0#8 0#1).wf = true := by decide
theorem test_wf_call : (Instr.call 0xFB#8 0#17).wf = false := by decide
theorem test_wf_base4 : (Instr.mloop 0#4 0#4 0#8 2#8 0#1).wf = false ∧ (Instr.mloop 0#4 0#4 0#8 0xFB#8 0#1).wf = false := by decide
theorem test_wf_quad : (Instr.dot8 0#2 0#3 1#8 0#8 0#1).wf = false := by decide
theorem test_wf_scale : (Instr.scale 0xFB#8 0#8).wf = false ∧ (Instr.scale 0#8 0xFC#8).wf = false := by decide
theorem test_wf_aop : (Instr.mloop 0#4 0#4 0xFB#8 0#8 0#1).wf = false := by decide
theorem test_wf_mloop_format : (Instr.mloop 0#4 8#4 0#8 0#8 0#1).wf = false := by decide
theorem test_wf_mout_format : (Instr.mout 0#4 4#4 0#8 0#8).wf = false ∧ (Instr.mout 0#4 9#4 0#8 0#8).wf = false := by decide
theorem test_wf_load : (Instr.ld 1#8 0#8 0#2 3#3 0#2 0#1 0#1).wf = false ∧ (Instr.ld 0#8 0#8 0#2 5#3 0#2 0#1 0#1).wf = false ∧
  (Instr.ld 0#8 0#8 0#2 2#3 2#2 0#1 0#1).wf = false ∧ (Instr.ld 0#8 0#8 0#2 2#3 0#2 1#1 0#1).wf = false := by decide
theorem test_wf_store : (Instr.st 0xFE#8 0#8 0#2 2#3 0#2 0#1).wf = false ∧ (Instr.st 0#8 0#8 0#2 2#3 2#2 0#1).wf = false := by decide
theorem test_wf_private : (Instr.ldp 0#8 0#8 1#3 0#1).wf = false ∧ (Instr.stp 0#8 0#8 1#3 0#1).wf = false := by decide
theorem test_wf_atomic : (Instr.atom 0#8 0#8 0#2 15#4 0#2 0#1).wf = false ∧ (Instr.atom 0#8 0#8 0#2 12#4 0#2 1#1).wf = false ∧
  (Instr.atom 1#8 0#8 0#2 14#4 0#2 0#1).wf = false ∧ (Instr.atomn 0xFE#8 0#8 0#2 0#4 0#2 0#1).wf = false ∧ (Instr.atomn 0#8 0#8 0#2 0#4 1#2 0#1).wf = false := by decide
theorem test_wf_special : (Instr.sget 0#8 0x0A#10).wf = false ∧ (Instr.sset 0#8 0x44#10).wf = false := by decide
theorem test_wf_signal : (Instr.signal 0#8 64#9).wf = false := by decide
theorem test_wf_hints : (Instr.hold 0#3 1#3).wf = false ∧ (Instr.mod 0#1 0#1 0#4 0#4 0#3 0#1 6#3).wf = false := by decide
theorem test_wf_spill : (Instr.spill 0#8 64#9).wf = false ∧ (Instr.reload 0#8 64#9).wf = false := by decide
theorem test_wf_tile : (Instr.tile 0#9).wf = false ∧ (Instr.tile 6#9).wf = false := by decide
theorem test_wf_convert : (Instr.cvt 0#8 0#8 12#4 0#4).wf = false ∧ (Instr.cvt 0#8 0#8 0#4 12#4).wf = false ∧ (Instr.cvt 0#8 0#8 3#4 3#4).wf = false := by decide
theorem test_wf_counted_store : (Instr.stc 0#8 0#8 0#2 0#2).wf = false := by decide
theorem test_wf_waitv : (Instr.waitv 0#8 0#8 0#2 6#4 0#2).wf = false ∧ (Instr.waitv 0#8 0#8 0#2 0#4 2#2).wf = false := by decide
theorem test_wf_stash : (Instr.smap 0#8 0#8 0#6 2#3).wf = false ∧ (Instr.sunmap 1#1 1#5).wf = false ∧ (Instr.sflush 1#1 1#5).wf = false := by decide

/-! ## Words of the manual's examples -/

/-- R58 to R64, R65 to R70, R310, R92. -/
theorem test_decode_control : decodeWord 0x04000000#32 = .instr (.bra 0#25) ∧ decodeWord 0x05FFFFFD#32 = .instr (.bra 0x1FFFFFD#25) ∧
  decodeWord 0x10000000#32 = .instr .exit ∧ decodeWord 0x1A080C00#32 = .instr (.sget 4#8 0x18#10) ∧ decodeWord 0x2A000050#32 = .instr (.mod 0#1 0#1 0#4 0#4 5#3 0#1 0#3) ∧
  decodeWord 0x2A000008#32 = .instr (.mod 0#1 0#1 0#4 0#4 0#3 1#1 0#3) ∧ decodeWord 0x20000040#32 = .instr (.ximmL 0x40#16) := by decide
/-- R120 to R127. -/
theorem test_decode_integer : decodeWord 0x4812080A#32 = .instr (.imac 9#8 4#8 5#8 0#1) ∧ decodeWord 0x4A160A0F#32 = .instr (.iaddcCi 11#8 5#8 7#8) ∧
  decodeWord 0x680E0413#32 = .instr (.bfe 7#8 2#8 9#8 1#1) := by decide
/-- R130 to R136. -/
theorem test_decode_lanes : decodeWord 0x701409E2#32 = .instr (.lgetIdx 10#8 4#8 0xF1#8) ∧ decodeWord 0x720C0404#32 = .instr (.pollMask 6#8 2#8) ∧
  decodeWord 0x7A0A0602#32 = .instr (.keymPeer 5#8 3#8 1#1) ∧ decodeWord 0x7FE60000#32 = .instr (.headFlag 0xF3#8) ∧ decodeWord 0x7E0E0001#32 = .instr (.headNum 7#8) := by decide
/-- R139 to R156. -/
theorem test_decode_float : decodeWord 0x80020406#32 = .instr (.fadd 1#8 2#8 3#8) ∧ decodeWord 0x82020406#32 = .instr (.fsub 1#8 2#8 3#8) ∧
  decodeWord 0x84020406#32 = .instr (.fmul 1#8 2#8 3#8) ∧ decodeWord 0x860C0406#32 = .instr (.fmaA 6#8 2#8 3#8) ∧ decodeWord 0x920E0AC4#32 = .instr (.cvt 7#8 5#8 6#4 2#4) ∧
  decodeWord 0xA0E811E1#32 = .instr (.dot4 1#2 4#3 8#8 0xF0#8 1#1) ∧ decodeWord 0xA4060204#32 = .instr (.exs 3#8 1#8 2#8) := by decide
/-- R160 to R182. -/
theorem test_decode_matrix : decodeWord 0xE2200000#32 = .instr (.mzero 1#4) ∧ decodeWord 0xE401E400#32 = .instr (.mscale 0#4 0xF2#8) ∧
  decodeWord 0xEA2A3C02#32 = .instr (.mput 21#8 30#8 1#4) ∧ decodeWord 0xE6002C20#32 = .instr (.mout 0#4 0#4 22#8 16#8) ∧ decodeWord 0xEC000A0C#32 = .instr (.mperturb 5#8 6#8) ∧
  decodeWord 0xE0002818#32 = .instr (.mloop 0#4 0#4 20#8 12#8 0#1) ∧ decodeWord 0xD2505840#32 = .instr (.xloadw 40#8 44#8 8#6 0#3) := by decide
/-- R213 to R226, R242, R252. -/
theorem test_decode_memory : decodeWord 0xB2140820#32 = .instr (.st 10#8 4#8 0#2 2#3 0#2 0#1) ∧ decodeWord 0xB2160C24#32 = .instr (.st 11#8 6#8 0#2 2#3 1#2 0#1) ∧
  decodeWord 0xB0280C24#32 = .instr (.ld 20#8 6#8 0#2 2#3 1#2 0#1 0#1) ∧ decodeWord 0xB80C1000#32 = .instr (.atom 6#8 8#8 0#2 0#4 0#2 0#1) ∧ decodeWord 0xD4000000#32 = .instr .rfence ∧
  decodeWord 0xD6686400#32 = .instr (.twaitAll 52#8 50#8) ∧ decodeWord 0xD86A6400#32 = .instr (.tfirst 53#8 50#8) ∧ decodeWord 0xDA006400#32 = .instr (.tack 50#8) := by decide
/-- R89. -/
theorem test_decode_region : decodeWord 0xF8000000#32 = .instr .rgn ∧ decodeWord 0xFA800002#32 = .instr (.commitB 2#17) ∧ decodeWord 0xFC0C0602#32 = .instr (.pinfoCause 6#8 3#8) ∧
  decodeWord 0xF0000003#32 = .instr (.barArrive 3#4) := by decide


/-! ## Effects, with values from the manual -/

/-- What an instruction leaves, where it answers a next state. -/
def after (i : Instr) (s : State) (p : State → Bool) : Bool := match exec i s with
  | .next t => p t
  | _ => false
/-- Lane 0 of a register. -/
def lane0 (t : State) (c : Code) : Val := t.warp.valueOf c 0
/-- `start` with words in v1 and v2. -/
def with2 (x y : Word) : State := withReg (withReg start 1 (Val.clean x)) 2 (Val.clean y)

/-- R119: sums are modulo 2^32. -/
theorem test_iadd_wraps : after (.iadd 3#8 1#8 2#8 0#1) (with2 0xFFFFFFFF#32 1#32) (fun t => lane0 t 3#8 == Val.clean 0#32 && t.warp.pcOf 31 == 0x8004#64) = true := by
  decide +kernel
/-- R117: a poisoned source gives its token, and it is the first in source order. -/
theorem test_iadd_poison : after (.iadd 3#8 1#8 2#8 0#1) (withReg (with2 0#32 1#32) 2 (Val.poison 0x08000007#32)) (fun t => lane0 t 3#8 == Val.poison 0x08000007#32) = true := by
  decide +kernel
/-- R119: under SAT a signed sum is clamped and SAT is flagged. -/
theorem test_iadd_saturates : after (.iadd 3#8 1#8 2#8 0#1) ((with2 0x7FFFFFFF#32 1#32).modFocus fun w =>
    { w with hints := { w.hints with mod := some { chv := false, arr := false, bid := 0, chn := 0, scope := 0, sat := true, rm := 0 } } })
    (fun t => lane0 t 3#8 == Val.clean 0x7FFFFFFF#32 && t.warp.fpstat == 0x20#32) = true := by decide +kernel
/-- R121's example: v4 = 0xFFFFFFFF and v6 = 1 carry 1, and 0 + 2 + 1 = 3. -/
theorem test_iaddc : after (.iaddcCo 3#8 1#8 2#8) (with2 0xFFFFFFFF#32 1#32) (fun t => lane0 t 3#8 == Val.clean 1#32) = true ∧
  after (.iaddcCi 3#8 1#8 2#8) (withReg (with2 0#32 2#32) 3 (Val.clean 1#32)) (fun t => lane0 t 3#8 == Val.clean 3#32) = true := by decide +kernel
/-- R120: the high word of (-1) × (-1) is 0 signed and 0xFFFFFFFE natural. -/
theorem test_imulh : after (.imulh 3#8 1#8 2#8 0#1) (with2 0xFFFFFFFF#32 0xFFFFFFFF#32) (fun t => lane0 t 3#8 == Val.clean 0#32) = true ∧
  after (.imulh 3#8 1#8 2#8 1#1) (with2 0xFFFFFFFF#32 0xFFFFFFFF#32) (fun t => lane0 t 3#8 == Val.clean 0xFFFFFFFE#32) = true := by decide +kernel
/-- R123: a signed right shift by 32 or more gives the sign, a left one 0. -/
theorem test_shift_by_the_width : after (.ishr 3#8 1#8 2#8 0#1) (with2 0x80000000#32 32#32) (fun t => lane0 t 3#8 == Val.clean 0xFFFFFFFF#32) = true ∧
  after (.ishl 3#8 1#8 2#8) (with2 0x80000001#32 32#32) (fun t => lane0 t 3#8 == Val.clean 0#32) = true := by decide +kernel
/-- R125: the comparison is one-hot, and SEL takes SA where its condition is not 0. -/
theorem test_icmp_and_sel : after (.icmp 3#8 1#8 2#8 0#1) (with2 0xFFFFFFFF#32 1#32) (fun t => lane0 t 3#8 == Val.clean 1#32) = true ∧
  after (.icmp 3#8 1#8 2#8 1#1) (with2 0xFFFFFFFF#32 1#32) (fun t => lane0 t 3#8 == Val.clean 4#32) = true ∧
  after (.sel 3#8 1#8 2#8) (withReg (with2 5#32 6#32) 3 (Val.clean 9#32)) (fun t => lane0 t 3#8 == Val.clean 5#32) = true := by decide +kernel
/-- R126: a field that runs past bit 31 ends there; R127: the leading zeros of 0 are 32. -/
theorem test_bfe_and_clz : after (.bfe 3#8 1#8 2#8 1#1) (with2 0xF0000000#32 0x101C#32) (fun t => lane0 t 3#8 == Val.clean 0xF#32) = true ∧
  after (.iunaClz 3#8 1#8) (with2 0#32 0#32) (fun t => lane0 t 3#8 == Val.clean 32#32) = true := by decide +kernel
/-- R139: 1.0 + 1.0 = 2.0; 1.0 + 2^-24 rounds to even and is inexact. -/
theorem test_fadd : after (.fadd 3#8 1#8 2#8) (with2 0x3F800000#32 0x3F800000#32) (fun t => lane0 t 3#8 == Val.clean 0x40000000#32 && t.warp.fpstat == 0#32) = true ∧
  after (.fadd 3#8 1#8 2#8) (with2 0x3F800000#32 0x33800000#32) (fun t => lane0 t 3#8 == Val.clean 0x3F800000#32 && t.warp.fpstat != 0#32) = true := by decide +kernel
/-- R102: infinity times 0 is the canonical NaN, and R142: a signalling NaN is class bit 8. -/
theorem test_nan : after (.fmul 3#8 1#8 2#8) (with2 0x7F800000#32 0#32) (fun t => lane0 t 3#8 == Val.clean 0x7FC00000#32) = true ∧
  after (.fclass 3#8 1#8) (with2 0x7F800001#32 0#32) (fun t => lane0 t 3#8 == Val.clean 0x100#32) = true := by decide +kernel
/-- R66: MOVI extends the sign of its immediate; R59: XIMM.H keeps the low half. -/
theorem test_immediates : after (.movi 3#8 0x1FFFF#17) start (fun t => lane0 t 3#8 == Val.clean 0xFFFFFFFF#32) = true ∧
  after (.ximmL 0x9002#16) start (fun t => t.warp.hints.xi == 0xFFFF9002#32) = true ∧
  after (.ximmH 4#16) (start.modFocus fun w => { w with hints := { w.hints with xi := 0xFFFF9002#32, xiValid := true } }) (fun t => t.warp.hints.xi == 0x49002#32) = true := by decide +kernel
/-- R311: BZ on 0 is taken, BNZ is not. -/
theorem test_branches : after (.bz 1#8 0x1FFFF#17) start (fun t => t.warp.pcOf 0 == 0x7FFC#64) = true ∧
  after (.bnz 1#8 2#17) start (fun t => t.warp.pcOf 0 == 0x8004#64) = true := by decide +kernel
/-- R313, R314: CALL keeps the address after it. -/
theorem test_call : after (.call 2#8 4#17) start (fun t => lane0 t 2#8 == Val.clean 0x8004#32 && t.warp.pcOf 0 == 0x8010#64 && t.warp.retStack == [0x8004#64]) = true := by decide +kernel
/-- R315: the warp whose last lanes exit has ended. -/
theorem test_exit : after .exit start (fun t => t.warp.status == .ended && t.warp.exited == fullMask) = true := by decide +kernel
/-- R78, R79: the word 0 leaves a token of cause ILLEGAL_ENCODING in l0 and sets the region-poison flag. -/
theorem test_suppressed_word : after (.suppressedWord .encoding) start (fun t => lane0 t 0xF8#8 == Val.poison (tokenBits Cause.illegalEncoding.code 0) && t.warp.region.flag) = true := by
  decide +kernel
/-- R199, R218: a load reads the word of memory, little-endian. -/
theorem test_load : after (.ld 3#8 4#8 0#2 2#3 0#2 0#1 0#1) (withReg (start.modMem fun d => { d with base := (d.base.setByte 0x9000 0x78#8).setByte 0x9003 0x12#8 }) 4 (Val.clean 0x9000#32))
  (fun t => lane0 t 3#8 == Val.clean 0x12000078#32) = true := by decide +kernel
/-- R215: a load from a page that is missing gives a token of cause PAGE_MISS. -/
theorem test_load_miss : after (.ld 3#8 4#8 0#2 2#3 0#2 0#1 0#1) (withReg start 5 (Val.clean 0x100#32)) (fun t => (lane0 t 3#8).psn && tokenCause (lane0 t 3#8).bits == Cause.pageMiss.code) = true := by
  decide +kernel
/-- R236: a store waits in the queue of its core. -/
theorem test_store : after (.st 3#8 4#8 0#2 2#3 0#2 0#1) (withReg start 4 (Val.clean 0x9000#32)) (fun t => (t.coreAt 0).storeQ.length == 1 && t.mem == start.mem) = true := by decide +kernel
/-- R225, R226: 32 lanes that each add 1 to one word leave 32, and the highest lane sees 31. -/
theorem test_atomic_add : after (.atom 3#8 4#8 0#2 0#4 0#2 0#1) (withReg (withReg start 4 (Val.clean 0x9000#32)) 3 (Val.clean 1#32))
  (fun t => t.warp.valueOf 3#8 31 == Val.clean 31#32 && (t.mem.view 0).nat 0x9000 4 == 32) = true := by decide +kernel

/-- R364: the digest of "abc" in FIPS 180-4. -/
theorem test_sha384 : (sha384 [0x61#8, 0x62#8, 0x63#8]).take 4 = [0xCB#8, 0x00#8, 0x75#8, 0x3F#8] := by decide +kernel


/-! ## The premises of the statements are met -/

/-- `start` with a WAITV of every lane on 0x9000 under a condition, at a time. -/
def waiting (cond ctr : Nat) (first : Bool := true) (timeout : Nat := 1) : State :=
  let v : WaitV := { dst := d0, cond := cond, acq := false, scope := 0, pl := 0, chan := 0, timeout := timeout, start := 0, offs := List.replicate 32 0x9000#64, vals := splat Val.zero, fin := 0#32
                     tests := [], late := false, toks := [], first := first }
  let p : PendRes := { id := 9, dsts := [d0, 0xF1#8], words := List.replicate 2 (splat (Val.clean 5#32)), mask := fullMask, left := fullMask, shapes := [.g, .g], pc := pc0, faults := [], flags := false
                       acq := false, wideAcq := false, dropped := false }
  { start.modFocus (fun w => { w with wait := .waitv, waitv := v, waitMask := fullMask, pend := [p] }) with ctrs := [ctr, 0, 0, 0, 0] }
/-- StepRunsFetched: a step with the fetch as an input, one with the fetch as its only move, one that tests a wait again, and the three others. -/
theorem meets_StepRunsFetched :
    (start.warp.group = some (fullMask, pc0) ∧ start.warp.mayIssue = true ∧ start.warp.fetchHold = none ∧
      ∃ x y lf w, start.lookup (some (start.coreOf start.warp.ref.wg)) start.myDie start.myTag 0 pc0 false = (x, .leaf lf) ∧ lf.ex = true ∧
        x.access start.myDie start.myTag (lf.frame + pc0.toNat % 65536) { start.here fullMask pc0 with addr := some (pc0, 0xFFF8#16) } lf.mt = (y, none) ∧
        y.wordAt start.myDie (lf.frame + pc0.toNat % 65536) = Val.clean w) ∧
    start.svc.runs = true ∧ start.inputs = [] ∧ start.allWarps.find? start.retestDue = none ∧ start.svc.lost = none ∧
    (start.modSvc fun v => { v with lost := some (0, 1, 0x9000) }).svc.lost = some (0, 1, 0x9000) := by
  refine ⟨⟨by decide +kernel, by decide +kernel, by decide +kernel, _, _, { tag := 1, space := 0, page := 0, frame := 0, wr := true, ex := true, mt := 0, nopeer := false }, 0#32,
    pair_eq (by decide +kernel), rfl, pair_eq (by decide +kernel), by decide +kernel⟩, by decide +kernel, by decide +kernel, by decide +kernel, rfl, rfl⟩
/-- The words of bytes, least significant byte first. -/
def wordsOf : List Byte → List Word
  | a :: b :: c :: d :: bs => (d ++ c ++ b ++ a) :: wordsOf bs
  | _ => []
/-- `start` with one core and no queue, its census shown as it is. -/
def lone : State :=
  let b := { start with queues := [], cores := [Core.fresh] }
  b.modSvc fun v => { v with shadow := wordsOf (b.censusNow 0#32) }
/-- StepRunsFetched: the fetch is the only move, and a device with no core and no queue has none. -/
theorem meets_StepRunsFetched_moves : lone.moves = [{ at' := some start.warp.ref, i := .instructionFetch }] := by decide +kernel
theorem meets_StepRunsFetched_idle : { State.reset with queues := [], cores := [] }.moves = [] := by decide +kernel
/-- StepRunsFetched, of a wait that tests again. -/
theorem meets_StepRunsFetched_retest : ((waiting 1 0).allWarps.find? (waiting 1 0).retestDue).isSome = true ∧ (waiting 1 0).svc.runs = true := by decide +kernel
/-- StepRunsFetched: a step that would change a line that the host may cache, one that leaves it, and one that adds a write to the log. -/
theorem meets_StepRunsFetched_guarded :
    let s := start.modSvc fun v => { v with directory := [0x9000 / 128] }
    let t := s.modMem fun d => { d with base := d.base.setByte 0x9000 1#8 }
    0x9000 / 128 ∈ s.svc.directory ∧ s.homeLine (0x9000 / 128) ≠ t.homeLine (0x9000 / 128) ∧ (∀ l ∈ s.svc.directory, s.homeLine l = (s.modMem fun d => { d with base := d.base.setByte 0x9080 1#8 }).homeLine l) := by
  decide +kernel
/-- MemoryReadsBack: a whole, a partial and a poison write of an aligned sector of a canonical memory. -/
theorem meets_MemoryReadsBack : (Memory.empty.setByte 5 1#8).wf = true ∧ (sectorBytes 32 (List.replicate 32 7#8)).mask = 0xFFFFFFFF#32 ∧ (sectorBytes 32 (List.replicate 32 7#8)).data.length = 32 ∧
  (sectorBytes 32 (List.replicate 32 7#8)).half = 0#32 ∧ { sectorBytes 32 (List.replicate 32 7#8) with half := 1#32 }.half ≠ 0#32 ∧
  (sectorBytes 40 [1#8]).mask ≠ 0xFFFFFFFF#32 ∧ (sectorBytes 40 [1#8]).data.length = 32 ∧ (sectorBytes 40 [1#8]).addr % 32 = 0 ∧ (sectorPoison 40 9#32).poison = some 9#32 ∧
  (Memory.empty.mark 40 (some 9#32)).token 40 ≠ none := by decide +kernel
/-- StepKeepsMemory: the reset state with an input steps on. -/
theorem meets_StepKeepsMemory : let s := { State.reset with inputs := [{ i := .censusUpdate }] }
    s.memWf = true ∧ ∃ t, step s = .next t := ⟨rfl, _, rfl⟩
/-- PoisonTokens: a sheet that is mapped and one that is not; an instruction that has made a token of the cause. -/
theorem meets_PoisonTokens :
    let s := withCtx start fun c => { c with csEn := true, csBase := 0x9000#64 }
    let u := withCtx start fun c => { c with csEn := true, csBase := 0x100000000000000#64 }
    1 < s.ctxs.length ∧ (s.ctx 1).csEn = true ∧ (∃ lf, ((s.modCtx 1 fun c => { c with csSeq := c.csSeq + 1 }).lookup none 0 1 0 0x9000#64 true).2 = .leaf lf ∧ lf.frame % 32 = 0) ∧
    (∀ p, s.locate p = none) ∧ s.memWf = true ∧ s.mem.shaped ∧
    { Origin.device 0 with share := [(Cause.bounds.code, 7#32)] }.share.find? (fun x => x.1 == Cause.bounds.code) = some (Cause.bounds.code, 7#32) ∧ (Origin.device 0).share = [] ∧
    ∃ f, ((u.modCtx 1 fun c => { c with csSeq := c.csSeq + 1 }).lookup none 0 1 0 0x100000000000000#64 true).2 = .fault f := by
  refine ⟨by decide +kernel, by decide +kernel, ⟨{ tag := 1, space := 0, page := 0, frame := 0, wr := true, ex := true, mt := 0, nopeer := false }, by decide +kernel, by decide⟩, unmapped_of (by decide +kernel), by decide +kernel, ?_, by decide, rfl, .pageMiss, by decide +kernel⟩
  exact ⟨by decide +kernel, (fun l hl => by cases hl), by decide +kernel⟩
/-- IntegerArithmetic, with a destination that is read and a pair. -/
theorem meets_IntegerArithmetic : Met start [(.iadd d0 1#8 2#8 0#1, formT d0 1#8 2#8), (.isub d0 1#8 2#8 1#1, formT d0 1#8 2#8), (.iaddi d0 1#8 0x1FF#9, formU d0 1#8),
  (.imul d0 1#8 2#8 0#1, formT d0 1#8 2#8), (.imulh d0 1#8 2#8 1#1, formT d0 1#8 2#8), (.imac d0 1#8 2#8 0#1, { formT d0 1#8 2#8 with reads := [1#8, 2#8, d0], slotD := [d0] }),
  (.iaddcCo d0 1#8 2#8, formT d0 1#8 2#8), (.iaddcCi d0 1#8 2#8, { formT d0 1#8 2#8 with reads := [1#8, 2#8, d0] }),
  (.lea d0 2#8 1#8 0#1, { reads := [2#8, 3#8, 1#8], slotA := [2#8, 3#8], slotB := [1#8], dsts := [d0, 0xF1#8] })] ∧ pairCodes 2#8 = [2#8, 3#8] ∧ pairCodes d0 = [d0, 0xF1#8] :=
  ⟨met_of (by decide +kernel), by decide, by decide⟩
/-- LogicAndShifts. -/
theorem meets_LogicAndShifts : Met start [(.and d0 1#8 2#8, formT d0 1#8 2#8), (.or d0 1#8 2#8, formT d0 1#8 2#8), (.xor d0 1#8 2#8, formT d0 1#8 2#8), (.andn d0 1#8 2#8, formT d0 1#8 2#8),
  (.logi d0 1#8 0#2 127#7, formU d0 1#8), (.logi d0 1#8 1#2 127#7, formU d0 1#8), (.logi d0 1#8 2#2 127#7, formU d0 1#8), (.logi d0 1#8 3#2 127#7, formU d0 1#8),
  (.ishl d0 1#8 2#8, formT d0 1#8 2#8), (.ishr d0 1#8 2#8 0#1, formT d0 1#8 2#8), (.ishr d0 1#8 2#8 1#1, formT d0 1#8 2#8), (.shi d0 1#8 0#2 31#5, formU d0 1#8), (.shi d0 1#8 1#2 31#5, formU d0 1#8),
  (.shi d0 1#8 2#2 31#5, formU d0 1#8), (.shi d0 1#8 3#2 31#5, formU d0 1#8)] := met_of (by decide +kernel)
/-- SelectionAndBits. -/
theorem meets_SelectionAndBits : Met start [(.imin d0 1#8 2#8 0#1, formT d0 1#8 2#8), (.imax d0 1#8 2#8 1#1, formT d0 1#8 2#8), (.icmp d0 1#8 2#8 0#1, formT d0 1#8 2#8),
  (.sel d0 1#8 2#8, { formT d0 1#8 2#8 with reads := [1#8, 2#8, d0] }), (.bfe d0 1#8 2#8 0#1, formT d0 1#8 2#8), (.bfe d0 1#8 2#8 1#1, formT d0 1#8 2#8),
  (.bfi d0 1#8 2#8, { formT d0 1#8 2#8 with reads := [1#8, 2#8, d0] }), (.iunaPopc d0 1#8, formU d0 1#8), (.iunaClz d0 1#8, formU d0 1#8), (.iunaBrev d0 1#8, formU d0 1#8),
  (.iunaIabs d0 1#8, formU d0 1#8), (.iunaIneg d0 1#8, formU d0 1#8)] := met_of (by decide +kernel)
/-- Moves; SHAPE of a cabinet register below N and of a drawer entry. -/
theorem meets_Moves : Met start [(.mov d0 1#8, formU d0 1#8), (.movg d0 1#8, formU d0 1#8), (.movi d0 0#17, { reads := [], dsts := [d0] }),
  (.shape d0 239#8, { reads := [], dsts := [d0], late := [239#8] }), (.shape d0 0xF7#8, { reads := [], dsts := [d0], late := [0xF7#8] })] ∧
  isCab 239#8 = true ∧ (239#8 : Code).toNat < start.warp.n ∧ isDrawer 0xF7#8 = true := ⟨met_of (by decide +kernel), by decide +kernel, by decide +kernel, by decide⟩
/-- Moves, of what is not a value: a drawer entry and a latch of half the lanes, a dead register and one beyond N; and a write of some lanes where no general register may be added, and of a dead register. -/
theorem meets_RegisterOutcomes :
    let goes := fun (s : State) (act : Mask) (i : Instr) (f : Form) =>
      s.warp.group = some (act, pc0) ∧ s.warp.mayIssue = true ∧ i.wf = true ∧ s.warp.blocked (f.reads ++ f.late) f.dsts = false ∧ s.svc.wordErrors = []
    let half := { lanes := splat Val.zero, shape := Shape.g, valid := 0xFFFF#32, pend := none : Slot }
    let h := start.modFocus fun w => { w with drawer := updAt w.drawer 5 fun _ => half, latch := updAt w.latch 1 fun _ => half }
    let k := start.modFocus fun w => { w with cab := updAt w.cab 1 fun r => { r with dead := true } }
    let n := start.modFocus fun w => { w with n := 8 }
    let p := fun s : State => s.modFocus fun w => { w with pcs := (List.range 32).map fun l => if l < 16 then pc0 else pc0 + 8#64 }
    let g := (p start).modFocus fun w => { w with gmax := 0 }
    let f : Form := { reads := [], dsts := [1#8] }
    (goes h fullMask (.mov d0 0xF5#8) (formU d0 0xF5#8) ∧ fullMask &&& ~~~ (h.warp.rawSource 0xF5#8).2 ≠ 0#32 ∧ goes h fullMask (.mov d0 0xF9#8) (formU d0 0xF9#8) ∧ fullMask &&& ~~~ (h.warp.rawSource 0xF9#8).2 ≠ 0#32) ∧
    (goes k fullMask (.mov d0 1#8) (formU d0 1#8) ∧ (k.warp.cab.getD 1 Reg.fresh).dead = true ∧ 1 < k.warp.n) ∧ (goes n fullMask (.mov d0 8#8) (formU d0 8#8) ∧ n.warp.n ≤ 8) ∧
    goes n fullMask (.movi 8#8 0#17) { f with dsts := [8#8] } ∧
    (goes g 0xFFFF#32 (.movi 1#8 0#17) f ∧ 1 < g.warp.n ∧ g.warp.gmax < g.warp.generalCount - (if (g.warp.cab.getD 1 Reg.fresh).shape = .g ∧ (g.warp.cab.getD 1 Reg.fresh).dead = false then 1 else 0) + 1) ∧
    (goes (p k) 0xFFFF#32 (.movi 1#8 0#17) f ∧ ((p k).warp.cab.getD 1 Reg.fresh).dead = true ∧ (p k).warp.generalCount + 1 ≤ (p k).warp.gmax) := by decide +kernel
/-- FloatArithmetic, FloatSignAndClass and ConvertAndPacked. -/
theorem meets_FloatArithmetic : Met start [(.fadd d0 1#8 2#8, formT d0 1#8 2#8), (.fsub d0 1#8 2#8, formT d0 1#8 2#8), (.fmul d0 1#8 2#8, formT d0 1#8 2#8), (.fmin d0 1#8 2#8, formT d0 1#8 2#8),
  (.fmax d0 1#8 2#8, formT d0 1#8 2#8), (.fcmp d0 1#8 2#8 1#1, formT d0 1#8 2#8), (.fmaA d0 1#8 2#8, { formT d0 1#8 2#8 with reads := [1#8, 2#8, d0], slotD := [d0] }),
  (.fmaL d0 1#8 2#8, { formT d0 1#8 2#8 with reads := [1#8, 2#8, 0xF8#8] }), (.frnd d0 1#8, formU d0 1#8)] := met_of (by decide +kernel)
theorem meets_FloatSignAndClass : Met start [(.fclass d0 1#8, formU d0 1#8), (.funaFabs d0 1#8, formU d0 1#8), (.funaFneg d0 1#8, formU d0 1#8)] := met_of (by decide +kernel)
theorem meets_ConvertAndPacked : Met start [(.cvt d0 1#8 0#4 11#4, formU d0 1#8), (.hadd2 d0 1#8 2#8 0#1, formT d0 1#8 2#8), (.hmul2 d0 1#8 2#8 1#1, formT d0 1#8 2#8),
  (.hfma2 d0 1#8 2#8 0#1, { formT d0 1#8 2#8 with reads := [1#8, 2#8, d0] })] := met_of (by decide +kernel)
/-- FloatRounding: finite operands whose exact results are within the range. -/
theorem meets_FloatRounding :
    let one : Nat := 0x3F800000
    let env : FpEnv := { rm := 1, sat := false, ftz := false }
    let val := fun p : Nat => (if p / 2 ^ 31 = 1 then (-1 : ℚ) else 1) *
      (if p / 2 ^ 23 % 256 = 0 then ((p % 2 ^ 23 : Nat) : ℚ) / 2 ^ 149 else ((2 ^ 23 + p % 2 ^ 23 : Nat) : ℚ) * 2 ^ (p / 2 ^ 23 % 256) / 2 ^ 150)
    env.ftz = false ∧ 1 ≤ env.rm ∧ env.rm ≤ 5 ∧ (one < 2 ^ 32 ∧ one / 2 ^ 23 % 256 ≠ 255) ∧ |val one * val one| ≤ val 0x7F7FFFFF ∧ |val one + val one| ≤ val 0x7F7FFFFF ∧ |val one - val one| ≤ val 0x7F7FFFFF ∧
      |val one * val one + val one| ≤ val 0x7F7FFFFF := by norm_num [abs_le]
/-- DotProducts, unscaled and under SCALE. -/
theorem meets_DotProducts :
    let f : Form := { reads := [0#8, 1#8, 2#8, 3#8, 4#8, 5#8, 6#8, 7#8, d0], slotA := [0#8, 1#8, 2#8, 3#8], slotB := [4#8, 5#8, 6#8, 7#8], dsts := [d0] }
    let g : Form := { f with reads := f.reads ++ [8#8, 9#8] }
    let s := start.modFocus fun w => { w with hints := { w.hints with scale := some (8#8, 9#8) } }
    Met start [(.dot2 0#3 1#8 2#8 0#1, { formT d0 1#8 2#8 with reads := [1#8, 2#8, d0] }), (.dot8 0#2 0#3 0#8 4#8 0#1, f), (.dot4 3#2 0#3 0#8 4#8 0#1, f)] ∧
    Met s [(.dot8 0#2 0#3 0#8 4#8 1#1, g), (.dot4 3#2 0#3 0#8 4#8 1#1, g)] ∧ s.warp.hints.scale = some (8#8, 9#8) :=
  ⟨met_of (by decide +kernel), met_of (by decide +kernel), rfl⟩
/-- SpecialFunctions and the running pairs. -/
theorem meets_SpecialFunctions : Met start [(.sfuRcp d0 1#8, (formU d0 1#8).slower), (.sfuRsq d0 1#8, (formU d0 1#8).slower), (.sfuSqrt d0 1#8, (formU d0 1#8).slower), (.sfuExp2 d0 1#8, (formU d0 1#8).slower),
  (.sfuLog2 d0 1#8, (formU d0 1#8).slower), (.sfuSinp d0 1#8, (formU d0 1#8).slower), (.sfuCosp d0 1#8, (formU d0 1#8).slower), (.sfuTanh d0 1#8, (formU d0 1#8).slower),
  (.exs d0 1#8 2#8, { formT d0 1#8 2#8 with reads := [1#8, 2#8, d0], lat := 10 }), (.smxa d0 1#8 2#8, { reads := [1#8, 2#8, d0, 0xF1#8], slotA := [1#8], slotB := [2#8], dsts := [d0, 0xF1#8], lat := 10 }),
  (.smxm 0xF6#8 2#8, { reads := [2#8, 3#8, 0xF6#8, 0xF7#8], slotA := [2#8, 3#8], dsts := [0xF6#8, 0xF7#8], lat := 10 })] ∧ d0.toNat % 2 = 0 ∧ isDrawer d0 = true ∧ isDrawer 0xF6#8 = true :=
  ⟨met_of (by decide +kernel), by decide, by decide, by decide⟩
/-- SpecialCompletion, with the cabinet registers 8 and 9 as the destination; the drawer is SpecialFunctions' case. -/
theorem meets_SpecialCompletion :
    let f : Form := { reads := [1#8, 2#8, 8#8, 9#8], slotA := [1#8], slotB := [2#8], dsts := [8#8, 9#8], lat := 10 }
    start.Issues (.sfuRcp 8#8 1#8) (formU 8#8 1#8).slower fullMask pc0 ∧ start.Issues (.smxa 8#8 1#8 2#8) f fullMask pc0 ∧ isCab 8#8 = true ∧ (8#8 : Code).toNat % 2 = 0 ∧
    (∀ c ∈ [8#8, 9#8], c.toNat < start.warp.n ∧ ((start.warp.markDead f).cab.getD c.toNat Reg.fresh).dead = false) ∧ (start.warp.markDead f).generalCount + 1 < start.warp.gmax ∧ pairCodes 2#8 = [2#8, 3#8] :=
  ⟨issues_of (by decide +kernel), issues_of (by decide +kernel), by decide +kernel⟩
/-- LaneExchange: TILE at both ends of its range, the gets and HEAD. -/
theorem meets_LaneExchange : Met start [(.tile 1#9, { reads := [] }), (.tile 5#9, { reads := [] }), (.lgetIdx d0 1#8 2#8, { reads := [2#8], slotA := [1#8], slotB := [2#8], dsts := [d0], late := [1#8] }),
  (.lgetRot d0 1#8 2#8, { reads := [2#8], slotA := [1#8], slotB := [2#8], dsts := [d0], late := [1#8] }), (.headFlag d0, { reads := [], dsts := [d0] }), (.headNum d0, { reads := [], dsts := [d0] })] ∧
  start.warp.readable fullMask 1#8 := ⟨met_of (by decide +kernel), readable_of (by decide +kernel)⟩
/-- TileReductions, with the least and the greatest of equal values. -/
theorem meets_TileReductions : Met start [(.pollEvery d0 1#8, formU d0 1#8), (.pollSome d0 1#8, formU d0 1#8), (.pollMask d0 1#8, formU d0 1#8), (.pollSame d0 1#8, formU d0 1#8), (.pollCount d0 1#8, formU d0 1#8),
  (.wredAdd d0 1#8, (formU d0 1#8).slow), (.wredAnd d0 1#8, (formU d0 1#8).slow), (.wredOr d0 1#8, (formU d0 1#8).slow), (.wredXor d0 1#8, (formU d0 1#8).slow), (.wredMin d0 1#8 0#1, (formU d0 1#8).slow),
  (.wredMax d0 1#8 1#1, (formU d0 1#8).slow), (.keymWhole d0 1#8 0#1, (formU d0 1#8).slow), (.keymPeer d0 1#8 1#1, (formU d0 1#8).slow)] ∧
  start.warp.tsize = 32 ∧ (∀ l < 32, tileLanes fullMask 32 l = List.range 32) ∧ (List.range 32).map (fun k => (start.warp.valueOf 1#8 k).bits) = List.replicate 32 0#32 :=
  ⟨met_of (by decide +kernel), by decide +kernel, by decide +kernel, by decide +kernel⟩
/-- TreesAndScans. -/
theorem meets_TreesAndScans : Met start [(.wredfFadd d0 1#8, (formU d0 1#8).slow), (.wredfFmin d0 1#8, (formU d0 1#8).slow), (.wredfFmax d0 1#8, (formU d0 1#8).slow), (.scanIadd d0 1#8 0#1, (formU d0 1#8).slow),
  (.scanImaxS d0 1#8 1#1, (formU d0 1#8).slow), (.scanImaxN d0 1#8 0#1, (formU d0 1#8).slow), (.scanIminS d0 1#8 1#1, (formU d0 1#8).slow), (.scanIminN d0 1#8 0#1, (formU d0 1#8).slow),
  (.scanOr d0 1#8 1#1, (formU d0 1#8).slow), (.scanFadd d0 1#8 0#1, (formU d0 1#8).slow)] ∧ start.warp.tsize = 32 ∧ ∀ l < 32, (start.warp.valueOf 1#8 l).psn = false :=
  ⟨met_of (by decide +kernel), by decide +kernel, by decide +kernel⟩

/-- HintEffects: every hint is well-formed at the ends of its fields, and the warp may issue. -/
theorem meets_HintEffects : start.warp.group = some (fullMask, pc0) ∧ start.warp.mayIssue = true ∧
  ∀ i ∈ [Instr.ximmL 0xFFFF#16, .ximmH 0#16, .life 0xFF#8 0xFFFF#16, .hold 7#3 7#3, .hold 1#3 0#3, .holdRel, .scale 0#8 0xFD#8, .mod 1#1 1#1 15#4 15#4 7#3 1#1 5#3, .sched 15#4, .schedYp 0#4],
    i.wf = true := by decide +kernel
/-- NopAndBranch. -/
theorem meets_NopAndBranch : Met start [(.nop, { reads := [] }), (.bra 0x1000000#25, { reads := [], point := start.warp.hints.yp }), (.bra 0xFFFFFF#25, { reads := [], point := start.warp.hints.yp })] :=
  met_of (by decide +kernel)
/-- Branches: clean and poisoned conditions; a target that is a multiple of 4 and one that is not; CALL and CLOCK. -/
theorem meets_Branches :
    let p := withReg start 1 (Val.poison 5#32)
    let b := withReg start 2 (Val.clean 1#32)
    let f : Form := { reads := [2#8, 3#8], slotA := [2#8, 3#8], point := false }
    (Met start [(.bz 1#8 1#17, { reads := [1#8], slotA := [1#8], point := false }), (.bnz 1#8 1#17, { reads := [1#8], slotA := [1#8], point := false }), (.brx 2#8, f), (.ret 2#8, f),
        (.clock d0, { reads := [], dsts := [d0, 0xF1#8] }), (.call d0 0x10000#17, { reads := [], dsts := [d0, 0xF1#8] })] ∧
      start.warp.hints.yp = false ∧ (∀ l < 32, (start.warp.valueOf 1#8 l).psn = false) ∧
      ∀ l < 32, ((start.warp.valueOf 3#8 l).bits ++ (start.warp.valueOf 2#8 l).bits).toNat % 4 = 0) ∧
    (Met p [(.bz 1#8 1#17, { reads := [1#8], slotA := [1#8], point := false })] ∧ (p.warp.valueOf 1#8 0).psn = true) ∧
    Met b [(.brx 2#8, f)] ∧ ((b.warp.valueOf 3#8 0).bits ++ (b.warp.valueOf 2#8 0).bits).toNat % 4 ≠ 0 :=
  ⟨⟨met_of (by decide +kernel), by decide +kernel, by decide +kernel, by decide +kernel⟩, ⟨met_of (by decide +kernel), by decide +kernel⟩, met_of (by decide +kernel), by decide +kernel⟩
/-- YieldExitAndSignals: an EXIT of some lanes and of all; BRK with a queue that has room; SIGNAL of a clean and a poisoned value. -/
theorem meets_YieldExitAndSignals :
    let some' := start.modFocus fun w => { w with pcs := (List.range 32).map fun l => if l < 16 then pc0 else pc0 + 8#64 }
    let q := withCtx start fun c => { c with eqEn := true, eqBase := 0xA000#64 }
    let p := withReg start 1 (Val.poison 5#32)
    (Met start [(.yield, { reads := [], point := true }), (.exit, { reads := [], point := true }), (.signal 1#8 63#9, { reads := [1#8], slotA := [1#8] })] ∧ start.warp.exited ||| fullMask = fullMask ∧
      start.warp.region.flag = false ∧ start.rackOf start.warp.ref = [] ∧ start.warp.isTask = false ∧ start.myLaunch.paired = false ∧ start.warp.acquiring = false ∧ start.released start.warp.ref true = true) ∧
    (some'.Issues .exit { reads := [], point := true } 0xFFFF#32 pc0 ∧ some'.warp.exited ||| 0xFFFF#32 ≠ fullMask) ∧
    (Met q [(.brk 0xFFFF#16, { reads := [] })] ∧ (q.ctx q.myTag).eqEn = true ∧ ((q.ctx q.myTag).eqWrite - (q.ctx q.myTag).eqRead).toNat ≠ 2 ^ (q.ctx q.myTag).eqLog2n ∧
      ∃ tl, (q.lookup none 4 q.myTag 0 ((q.ctx q.myTag).eqBase + BitVec.ofNat 64 ((q.ctx q.myTag).eqWrite.toNat % 2 ^ (q.ctx q.myTag).eqLog2n * 32)) true).2 = .leaf tl) ∧
    Met p [(.signal 1#8 0#9, { reads := [1#8], slotA := [1#8] })] ∧ (p.warp.valueOf 1#8 0).psn = true :=
  ⟨⟨met_of (by decide +kernel), by decide +kernel, by decide +kernel, by decide +kernel, by decide +kernel, by decide +kernel, by decide +kernel, by decide +kernel⟩,
   ⟨issues_of (by decide +kernel), by decide +kernel⟩,
   ⟨met_of (by decide +kernel), by decide +kernel, by decide +kernel, { tag := 1, space := 0, page := 0, frame := 0, wr := true, ex := true, mt := 0, nopeer := false }, by decide +kernel⟩, met_of (by decide +kernel), by decide +kernel⟩
/-- SpecialRegisters: SSET of FPMODE with the last legal and the first illegal rounding mode, and of a poisoned value. -/
theorem meets_SpecialRegisters :
    let s := fun v => withReg start 1 v
    let f : Form := { reads := [1#8], slotA := [1#8] }
    Met start [(.sget d0 0#10, { reads := [], dsts := [d0] }), (.sget d0 0x41#10, { reads := [], dsts := [d0] }), (.sset 1#8 0x40#10, f), (.sset 1#8 0x43#10, f)] ∧ start.scaling = false ∧
    Met (s (Val.clean 5#32)) [(.sset 1#8 0x40#10, f)] ∧ (((s (Val.clean 5#32)).warp.valueOf 1#8 0).bits.toNat < 16 ∧ ((s (Val.clean 5#32)).warp.valueOf 1#8 0).bits.toNat % 8 ≤ 5) ∧
    Met (s (Val.clean 6#32)) [(.sset 1#8 0x40#10, f)] ∧ ¬ ((s (Val.clean 6#32)).warp.valueOf 1#8 0).bits.toNat % 8 ≤ 5 ∧
    Met (s (Val.poison 5#32)) [(.sset 1#8 0x42#10, f)] ∧ ((s (Val.poison 5#32)).warp.valueOf 1#8 0).psn = true :=
  ⟨met_of (by decide +kernel), by decide +kernel, met_of (by decide +kernel), by decide +kernel, met_of (by decide +kernel), by decide +kernel, met_of (by decide +kernel), by decide +kernel⟩
/-- SpillAndReload: the last slot, its line mapped. -/
theorem meets_SpillAndReload : Met start [(.spill 1#8 63#9, { reads := [1#8], slotA := [1#8] }), (.reload d0 63#9, { reads := [], dsts := [d0] })] ∧ start.warp.spw ≠ 0xFFFFFFFF ∧ start.warp.acquiring = false ∧
  start.storeFull 1 = false ∧ start.Plain ∧ (∃ pa n ps, (start.spillLine 63 true).2 = .mem 1 ((pa, n) :: ps)) ∧ ∃ pa n ps, (start.spillLine 63 false).2 = .mem 1 ((pa, n) :: ps) :=
  ⟨met_of (by decide +kernel), by decide +kernel, by decide +kernel, by decide +kernel, plain_of (by decide +kernel), isArea_of (by decide +kernel), isArea_of (by decide +kernel)⟩
/-- Loads: bytes that are extended, a quad that is sequentially consistent, and a private pair. -/
theorem meets_Loads :
    let w := start.warp
    let op := fun c : Code => (w.rawSource c).1
    let at' := fun size => (State.ways size size false (fun l => laneAddr (w.placeOf 0#2) (op 4#8) (op 5#8) (w.iss fullMask pc0).xoff l) (lanesOf fullMask) start []).2
    Met start [(.ld d0 4#8 0#2 0#3 0#2 1#1 0#1, { reads := [4#8, 5#8], slotA := [4#8, 5#8], dsts := [d0] }),
      (.ld d0 4#8 0#2 4#3 3#2 0#1 1#1, { reads := [4#8, 5#8], slotA := [4#8, 5#8], dsts := [d0, 0xF1#8, 0xF2#8, 0xF3#8] }),
      (.ldp d0 4#8 3#3 0#1, { reads := [4#8], slotA := [4#8], dsts := [d0, 0xF1#8] })] ∧ start.Plain ∧ w.acquiring = false ∧ start.myLaunch.paired = false ∧ pairCodes 4#8 = [4#8, 5#8] ∧
    start.orderWaits true (start.scopeAt (w.placeOf 0#2)) = false ∧ (∀ a ∈ at' 1, ∃ sp p ps, a.way = .mem sp (p :: ps)) ∧ (∀ a ∈ at' 16, ∃ sp p ps, a.way = .mem sp (p :: ps)) ∧
    ∀ a ∈ (State.ways 8 8 false (fun l => privAddr [op 4#8] l) (lanesOf fullMask) start []).2, ∃ sp p ps, a.way = .mem sp (p :: ps) :=
  ⟨met_of (by decide +kernel), plain_of (by decide +kernel), by decide +kernel, by decide +kernel, by decide, by decide +kernel, allMem_of (by decide +kernel), allMem_of (by decide +kernel), allMem_of (by decide +kernel)⟩
/-- Stores, plain and as a release, and one whose data is poisoned. -/
theorem meets_Stores :
    let w := start.warp
    let op := fun c : Code => (w.rawSource c).1
    let q := (State.ways 4 4 true (fun l => laneAddr (w.placeOf 0#2) (op 4#8) (op 5#8) (w.iss fullMask pc0).xoff l) (lanesOf fullMask) start []).2
    let f : Form := { reads := [4#8, 5#8, 1#8], slotA := [4#8, 5#8], slotB := [1#8] }
    let p := withReg start 1 (Val.poison 5#32)
    let pp := fun c : Code => (p.warp.rawSource c).1
    (Met start [(.st 1#8 4#8 0#2 2#3 0#2 0#1, f), (.st 1#8 4#8 0#2 2#3 3#2 0#1, f), (.stp 1#8 4#8 2#3 0#1, { reads := [4#8, 1#8], slotA := [4#8], slotB := [1#8] })] ∧ w.acquiring = false ∧
      start.myLaunch.paired = false ∧ start.storeFull (linesOf ((w.placeOf 0#2).toNat % 8) 4 (start.peekOffs (pairCodes 4#8) 1 w.nextAct w.nextOff)) = false ∧
      (start.markRelease (start.scopeAt (w.placeOf 0#2))).storeFull (linesOf ((w.placeOf 0#2).toNat % 8) 4 (start.peekOffs (pairCodes 4#8) 1 w.nextAct w.nextOff)) = false ∧
      start.storeFull (linesOf 1 4 (start.peekOffs [4#8] 4 w.nextAct)) = false ∧ start.orderWaits true (start.scopeAt (w.placeOf 0#2)) = false ∧ (∀ a ∈ q, ∃ sp p ps, a.way = .mem sp (p :: ps)) ∧
      (∀ a ∈ (State.ways 4 4 true (fun l => privAddr [op 4#8] l) (lanesOf fullMask) start []).2, ∃ sp p ps, a.way = .mem sp (p :: ps)) ∧ ∀ l < 32, (w.valueOf 1#8 l).psn = false) ∧
    (Met p [(.st 1#8 4#8 0#2 2#3 0#2 0#1, f)] ∧ p.warp.acquiring = false ∧ p.storeFull (linesOf ((p.warp.placeOf 0#2).toNat % 8) 4 (p.peekOffs (pairCodes 4#8) 1 p.warp.nextAct p.warp.nextOff)) = false ∧
      (∀ a ∈ (State.ways 4 4 true (fun l => laneAddr (p.warp.placeOf 0#2) (pp 4#8) (pp 5#8) (p.warp.iss fullMask pc0).xoff l) (lanesOf fullMask) p []).2, ∃ sp x ps, a.way = .mem sp (x :: ps)) ∧
      (p.coreAt (p.coreOf p.warp.ref.wg)).rack.length + 32 * 8 ≤ 512 ∧ p.svc.errors = [] ∧ ∀ l < 32, (p.warp.valueOf 1#8 l).psn = true) :=
  ⟨⟨met_of (by decide +kernel), by decide +kernel, by decide +kernel, by decide +kernel, by decide +kernel, by decide +kernel, by decide +kernel, allMem_of (by decide +kernel), allMem_of (by decide +kernel), by decide +kernel⟩,
   met_of (by decide +kernel), by decide +kernel, by decide +kernel, allMem_of (by decide +kernel), by decide +kernel⟩

/-- Atomics, with and without the old value, as an acquire and release; one lane's access; and what each lane reaches. -/
theorem meets_Atomics :
    let w := start.warp
    let op := fun c : Code => (w.rawSource c).1
    let q := State.ways 4 4 true (laneAddr (w.placeOf 0#2) (op 4#8) (op 5#8) (w.iss fullMask pc0).xoff) (lanesOf fullMask) start []
    let add := atomOf 0#4 0#1 (w.iss fullMask pc0).env.rm [Val.zero]
    let run := q.2.foldl (fun (z : State × Nat) a => match a.way with
      | .mem _ ((pa, _) :: _) => (match z.1.atomAt start.myDie start.myTag [] add pa with
        | (t, some _, _) => (t, z.2 + 1)
        | (t, none, _) => (t, z.2))
      | _ => z) (q.1, 0)
    Met start [(.atom d0 4#8 0#2 0#4 3#2 0#1, { reads := [4#8, 5#8, d0], slotA := [4#8, 5#8], slotB := [d0], dsts := [d0] }), (.atomn d0 4#8 0#2 0#4 2#2 0#1, { reads := [4#8, 5#8, d0], slotA := [4#8, 5#8], slotB := [d0] })] ∧
    start.Plain ∧ w.acquiring = false ∧ start.myLaunch.paired = false ∧ start.countingCopy = false ∧ start.orderWaits false (start.scopeAt (w.placeOf 0#2)) = false ∧ (∀ a ∈ q.2, ∃ sp p ps, a.way = .mem sp (p :: ps)) ∧
    valCodes 0#4 0#1 d0 = [d0] ∧ run.2 = q.2.length ∧ (∀ l < 32, (w.valueOf d0 l).psn = false) ∧ start.storeFull (linesOf ((w.placeOf 0#2).toNat % 8) 4 (start.peekOffs [4#8, 5#8] 1 w.nextAct w.nextOff)) = false ∧
    (start.atomAt 0 1 [] add 0x9000).2.1 = some 0 ∧ start.memWf = true ∧ start.mem.shaped ∧ start.locate 0x9000 = none ∧ 0x9000 % 4 = 0 :=
  ⟨met_of (by decide +kernel), plain_of (by decide +kernel), by decide +kernel, by decide +kernel, by decide +kernel, by decide +kernel, allMem_of (by decide +kernel), by decide, by decide +kernel, by decide +kernel,
   by decide +kernel, by decide +kernel, by decide +kernel, ⟨by decide +kernel, (fun l hl => by cases hl), by decide +kernel⟩, unmapped_of (by decide +kernel) _, by decide⟩
/-- Fences of every kind. -/
theorem meets_Fences : Met start [(.fence 0#2 0#3, { reads := [] }), (.fence 1#2 7#3, { reads := [] }), (.fence 2#2 1#3, { reads := [] }), (.fence 3#2 5#3, { reads := [] })] ∧ start.warp.acquiring = false ∧
  start.asking start.warp.ref = false ∧ start.drained start.warp.ref = true ∧ ∀ k < 8, start.mustWait k = false := ⟨met_of (by decide +kernel), by decide +kernel⟩
/-- `start` whose place 0 is SPACE 0 of node 9, with a send channel towards it or with none. -/
def afar (own : Bool) : State :=
  { start.modFocus (fun w => { w with places := [0x48#16, 0xFFF8#16, 0xFFF8#16, 0xFFF8#16] }) with
    fabric := { start.fabric with send := if own then [{ node := 9, chan := 0, tag := 1, count := 0#32 }] else [] } }
/-- `start` with a store of its warp in the queue of its core. -/
def storing : State :=
  start.modCore 0 fun c => { c with storeQ := [{ id := 9, grp := 1, warp := { wg := 2, warp := 0 }, quad := 0, tag := 1, act := .mem { addr := 0x9000, mask := 0xFFFFFFFF#32, data := List.replicate 32 7#8, poison := none } }] }
/-- What the 32 lanes of an access of `n` bytes by the pair v4 through place 0 reach. -/
def reach (s : State) (n : Nat) (wr : Bool) : State × List LaneAcc :=
  State.ways n n wr (laneAddr (s.warp.placeOf 0#2) (s.warp.rawSource 4#8).1 (s.warp.rawSource 5#8).1 (s.warp.iss fullMask pc0).xoff) (lanesOf fullMask) s []
def isRemote : Way → Bool
  | .remote _ _ => true
  | _ => false
theorem allRemote_of {q : List LaneAcc} (h : q.all (fun a => isRemote a.way) = true) : ∀ a ∈ q, ∃ n off, a.way = .remote n off := fun a ha => by
  have k := List.all_eq_true.mp h a ha
  unfold isRemote at k
  split at k
  · exact ⟨_, _, ‹_›⟩
  · cases k
/-- Loads: lanes with a poisoned address, lanes that fault, lanes of a node whose channel the context owns or not; and a sequentially consistent load that must wait. -/
theorem meets_Loads_lanes :
    let f : Form := { reads := [4#8, 5#8], slotA := [4#8, 5#8], dsts := [d0] }
    let ld : Instr := .ld d0 4#8 0#2 2#3 0#2 0#1 0#1
    let b := withReg start 4 (Val.poison 5#32)
    let k := withReg start 4 (Val.clean 0x10000#32)
    let plain := fun s : State => Met s [(ld, f)] ∧ (s.svc.errors = [] ∧ (s.ctx s.myTag).injArm = false ∧ s.drained s.warp.ref = true ∧ s.cores.all (fun c => c.storeQ.all fun e => e.upto == 0) = true ∧ s.slack = false ∧
      s.warp.acquiring = false ∧ s.myLaunch.paired = false) ∧
      ∀ pa, (((reach s 4 false).1.tokensFor pc0 ((reach s 4 false).1.laneFaults 0 (fun _ => true) (reach s 4 false).2)).1).locate pa = none
    (plain b ∧ ∀ a ∈ (reach b 4 false).2, a.way = .bad 5#32) ∧ (plain k ∧ ∀ a ∈ (reach k 4 false).2, ∃ x, a.way = .fault .protection 0 x) ∧
    (plain (afar true) ∧ (∀ a ∈ (reach (afar true) 4 false).2, a.way = .remote 9 0#64) ∧ (afar true).ownsSend 1 9 0 = true ∧ (afar true).peerWord 0 1 9 0 = none) ∧
    (plain (afar false) ∧ (∀ a ∈ (reach (afar false) 4 false).2, a.way = .remote 9 0#64) ∧ (afar false).ownsSend 1 9 0 = false) ∧
    (Met storing [(.ld d0 4#8 0#2 2#3 3#2 0#1 0#1, f)] ∧ storing.orderWaits true (storing.scopeAt (storing.warp.placeOf 0#2)) = true ∧ storing.warp.acquiring = false) :=
  ⟨⟨⟨met_of (by decide +kernel), by decide +kernel, unmapped_of (by decide +kernel)⟩, by decide +kernel⟩,
   ⟨⟨met_of (by decide +kernel), by decide +kernel, unmapped_of (by decide +kernel)⟩, fun a ha => ⟨0x10000#64, by
      have := List.all_eq_true.mp (show (reach (withReg start 4 (Val.clean 0x10000#32)) 4 false).2.all (fun a => a.way == .fault .protection 0 0x10000#64) = true by decide +kernel) a ha
      simpa using this⟩⟩,
   ⟨⟨met_of (by decide +kernel), by decide +kernel, unmapped_of (by decide +kernel)⟩, by decide +kernel⟩,
   ⟨⟨met_of (by decide +kernel), by decide +kernel, unmapped_of (by decide +kernel)⟩, by decide +kernel⟩,
   ⟨met_of (by decide +kernel), by decide +kernel⟩⟩
/-- Stores: lanes of another node whose channel the context owns, and lanes of one whose channel it does not own; lanes with a poisoned address and lanes that fault; and a release that must wait. -/
theorem meets_Stores_lanes :
    let f : Form := { reads := [4#8, 5#8, 1#8], slotA := [4#8, 5#8], slotB := [1#8] }
    let st : Instr := .st 1#8 4#8 0#2 2#3 0#2 0#1
    let b := withReg start 4 (Val.poison 5#32)
    let k := withReg start 4 (Val.clean 0x10000#32)
    let room := fun s : State => s.storeFull (linesOf ((s.warp.placeOf 0#2).toNat % 8) 4 (s.peekOffs (pairCodes 4#8) 1 s.warp.nextAct s.warp.nextOff)) = false
    let ok := fun s : State => Met s [(st, f)] ∧ s.warp.acquiring = false ∧ s.myLaunch.paired = false ∧ room s ∧ (s.coreAt (s.coreOf s.warp.ref.wg)).rack.length + 32 * 8 ≤ 512 ∧ s.coreOf s.warp.ref.wg < s.cores.length ∧ s.svc.errors = []
    (ok (afar true) ∧ (∀ a ∈ (reach (afar true) 4 true).2, a.way = .remote 9 0#64) ∧ (reach (afar true) 4 true).1.ownsSend 1 9 0 = true ∧ ∀ l < 32, ((afar true).warp.valueOf 1#8 l).psn = false) ∧
    (ok (afar false) ∧ (∀ a ∈ (reach (afar false) 4 true).2, a.way = .remote 9 0#64) ∧ (reach (afar false) 4 true).1.ownsSend 1 9 0 = false) ∧
    (ok b ∧ (∀ a ∈ (reach b 4 true).2, a.way = .bad 5#32) ∧ (reach b 4 true).1.laneFaults 0 (fun _ => true) (reach b 4 true).2 = []) ∧ (ok k ∧ ∀ a ∈ (reach k 4 true).2, a.way = .fault .protection 0 0x10000#64) ∧
    (Met storing [(.st 1#8 4#8 0#2 2#3 1#2 0#1, f)] ∧ storing.orderWaits false (storing.scopeAt (storing.warp.placeOf 0#2)) = true ∧ storing.warp.acquiring = false ∧ room storing) :=
  ⟨⟨⟨met_of (by decide +kernel), by decide +kernel⟩, by decide +kernel⟩, ⟨⟨met_of (by decide +kernel), by decide +kernel⟩, by decide +kernel⟩, ⟨⟨met_of (by decide +kernel), by decide +kernel⟩, by decide +kernel⟩,
   ⟨⟨met_of (by decide +kernel), by decide +kernel⟩, by decide +kernel⟩, met_of (by decide +kernel), by decide +kernel⟩
/-- Atomics: lanes with a poisoned address, lanes that fault, and lanes of a node whose channel the context owns or not. -/
theorem meets_Atomics_lanes :
    let f : Form := { reads := [4#8, 5#8, d0], slotA := [4#8, 5#8], slotB := [d0] }
    let b := withReg start 4 (Val.poison 5#32)
    let k := withReg start 4 (Val.clean 0x10000#32)
    let ok := fun s : State => Met s [(.atom d0 4#8 0#2 0#4 0#2 0#1, { f with dsts := [d0] }), (.atomn d0 4#8 0#2 0#4 0#2 0#1, f)] ∧ s.warp.acquiring = false ∧ s.myLaunch.paired = false ∧ s.countingCopy = false ∧
      s.storeFull (linesOf ((s.warp.placeOf 0#2).toNat % 8) 4 (s.peekOffs [4#8, 5#8] 1 s.warp.nextAct s.warp.nextOff)) = false ∧ ∀ l < 32, (s.warp.valueOf d0 l).psn = false
    (ok b ∧ b.Plain ∧ ∀ a ∈ (reach b 4 true).2, a.way = .bad 5#32) ∧ (ok k ∧ k.Plain ∧ ∀ a ∈ (reach k 4 true).2, a.way = .fault .protection 0 0x10000#64) ∧
    (ok (afar false) ∧ (afar false).Plain ∧ (∀ a ∈ (reach (afar false) 4 true).2, a.way = .remote 9 0#64) ∧ (reach (afar false) 4 true).1.ownsSend 1 9 0 = false) ∧
    (ok (afar true) ∧ (afar true).Plain ∧ (∀ a ∈ (reach (afar true) 4 true).2, a.way = .remote 9 0#64) ∧ (reach (afar true) 4 true).1.ownsSend 1 9 0 = true) ∧ isDrawer d0 = true :=
  ⟨⟨⟨met_of (by decide +kernel), by decide +kernel⟩, plain_of (by decide +kernel), by decide +kernel⟩, ⟨⟨met_of (by decide +kernel), by decide +kernel⟩, plain_of (by decide +kernel), by decide +kernel⟩,
   ⟨⟨met_of (by decide +kernel), by decide +kernel⟩, plain_of (by decide +kernel), by decide +kernel⟩, ⟨⟨met_of (by decide +kernel), by decide +kernel⟩, plain_of (by decide +kernel), by decide +kernel⟩, by decide⟩
/-- Fences and CountedRelease: a fence that must wait, of each kind, and an STC that must. -/
theorem meets_Fences_waits :
    let a := { storing with fabric := (afar true).fabric }.modFocus fun w => { w with places := (afar true).warp.places }
    Met storing [(.fence 0#2 5#3, { reads := [] }), (.fence 2#2 0#3, { reads := [] }), (.fence 3#2 1#3, { reads := [] })] ∧ storing.mustWait 5 = true ∧ storing.drained storing.warp.ref = false ∧ storing.warp.acquiring = false ∧
    (Met a [(.stc 1#8 4#8 0#2 1#2, { reads := [4#8, 5#8, 1#8], slotA := [4#8, 5#8], slotB := [1#8] })] ∧ a.warp.acquiring = false ∧ a.countingCopy = false ∧ a.myLaunch.paired = false ∧ a.released a.warp.ref true = false) :=
  ⟨met_of (by decide +kernel), by decide +kernel, by decide +kernel, by decide +kernel, met_of (by decide +kernel), by decide +kernel⟩
/-- CountedRelease: an STC over a channel that the context owns, and a WAITV that holds at once and one that does not. -/
theorem meets_CountedRelease :
    let s := { start.modFocus (fun w => { w with places := [0x48#16, 0xFFF8#16, 0xFFF8#16, 0xFFF8#16] }) with fabric := { start.fabric with send := [{ node := 9, chan := 0, tag := 1, count := 0#32 }] } }
    let op := fun c : Code => (s.warp.rawSource c).1
    let q := (State.ways 8 8 true (laneAddr (s.warp.placeOf 0#2) (op 4#8) (op 5#8) (s.warp.iss fullMask pc0).xoff) (lanesOf fullMask) s []).2
    let u := withReg start 7 (Val.clean 1#32)
    let at' := fun z : State => (State.ways 4 4 false (laneAddr (start.warp.placeOf 0#2) (op 4#8) (op 5#8) (start.warp.iss fullMask pc0).xoff) (lanesOf fullMask) z [])
    let f : Form := { reads := [4#8, 5#8, 6#8, 7#8], slotA := [4#8, 5#8], slotB := [6#8, 7#8], dsts := [6#8, 7#8], point := true }
    (Met s [(.stc 1#8 4#8 0#2 1#2, { reads := [4#8, 5#8, 1#8], slotA := [4#8, 5#8], slotB := [1#8] })] ∧ s.warp.acquiring = false ∧ s.released s.warp.ref true = true ∧
      s.countingCopy = false ∧ s.myLaunch.paired = false ∧ (∀ a ∈ q, a.way = .remote 9 0#64) ∧ s.ownsSend s.myTag 9 (s.warp.iss fullMask pc0).chan = true ∧ ∀ l < 32, (s.warp.valueOf 1#8 l).psn = false) ∧
    (Met u [(.waitv 6#8 4#8 0#2 0#4 0#2, f), (.waitv 6#8 4#8 0#2 1#4 1#2, f)] ∧ u.Plain ∧ u.warp.acquiring = false ∧ u.myLaunch.paired = false ∧ pairCodes 6#8 = [6#8, 7#8] ∧
      (∀ a ∈ (at' u).2, ∃ sp p ps, a.way = .mem sp (p :: ps)) ∧ (∀ a ∈ (at' (at' u).1).2, ∃ sp p ps, a.way = .mem sp (p :: ps)) ∧
      (∀ l < 32, (u.warp.valueOf 6#8 l).psn = false) ∧ (u.warp.valueOf 7#8 0).psn = false ∧ (u.warp.valueOf 7#8 0).bits ≠ 0#32 ∧ waitCond 0 ((u.mem.view 0).readVal 0x100 4).bits 0#32 = true ∧
      waitCond 1 ((u.mem.view 0).readVal 0x100 4).bits 0#32 = false) :=
  ⟨⟨met_of (by decide +kernel), by decide +kernel, by decide +kernel, by decide +kernel, by decide +kernel, by decide +kernel, by decide +kernel, by decide +kernel⟩,
   met_of (by decide +kernel), plain_of (by decide +kernel), by decide +kernel, by decide +kernel, by decide, allMem_of (by decide +kernel), allMem_of (by decide +kernel), by decide +kernel, by decide +kernel, by decide +kernel, by decide +kernel, by decide +kernel⟩
/-- CompletionTags: a mask of tags 0 and 7 of a run of 8, one DONE and one BUSY, so that .ANY is met and .ALL is not. -/
theorem meets_CompletionTags :
    let g := fun g : Wg => { g with tags := updAt (updAt g.tags 0 fun _ => { state := 2, psn := false, causes := 0#32 }) 7 fun _ => { state := 1, psn := false, causes := 0#32 } }
    let s := withReg (withWg start g) 2 (Val.clean 0x81#32)
    let f : Form := { reads := [2#8, 3#8], slotA := [2#8, 3#8], dsts := [d0] }
    Met s [(.tfirst d0 2#8, f), (.tack 2#8, { f with dsts := [] }), (.twaitAny d0 2#8, { f with point := true }), (.twaitAll d0 2#8, { f with point := true })] ∧ pairCodes 2#8 = [2#8, 3#8] ∧
    (s.warp.valueOf 2#8 0).psn = false ∧ (s.warp.valueOf 3#8 0).psn = false ∧
    (∀ t < 64, ((s.warp.valueOf 3#8 0).bits ++ (s.warp.valueOf 2#8 0).bits : DWord).getLsbD t = true → s.myWg.hasTag t = true) ∧ (s.myWg.tagAt 0).state = 2 ∧ (s.myWg.tagAt 0).psn = false ∧ (s.myWg.tagAt 7).state = 1 :=
  ⟨met_of (by decide +kernel), by decide, by decide +kernel, by decide +kernel, by decide +kernel, by decide +kernel, by decide +kernel, by decide +kernel⟩
/-- StashMaps: an SMAP of one page onto entry 0, and SUNMAP and SFLUSH of one entry and of all. -/
theorem meets_StashMaps :
    let s := withReg start 5 (Val.clean 4096#32)
    let x := fun c : Code => (s.warp.valueOf c 0).bits.toNat
    Met s [(.smap 2#8 4#8 7#6 1#3, { reads := [2#8, 3#8, 4#8, 5#8, 6#8, 7#8], slotA := [2#8, 3#8], slotB := [4#8, 5#8, 6#8, 7#8] }), (.sunmap 0#1 31#5, { reads := [] }), (.sunmap 1#1 0#5, { reads := [] }),
      (.sflush 0#1 31#5, { reads := [] }), (.sflush 1#1 0#5, { reads := [] })] ∧ (∀ c ∈ [2#8, 3#8, 4#8, 5#8, 6#8, 7#8], (s.warp.valueOf c 0).psn = false) ∧ s.myWg.hasTag 7 = true ∧ (s.myWg.tagAt 7).state ≠ 1 ∧
    s.myLaunch.paired = false ∧ (s.warp.acquiring = false ∧ s.drained s.warp.ref = true) ∧ smapBad s.stashSize (x 2#8 + 2 ^ 32 * x 3#8) (x 4#8) (x 5#8) (x 6#8) (x 7#8) = false ∧ s.smaps = [] :=
  ⟨met_of (by decide +kernel), by decide +kernel, by decide +kernel, by decide +kernel, by decide +kernel, by decide +kernel, by decide +kernel, by decide +kernel⟩
/-- EngineIssue: copies of every direction, XLOADW, RFENCE, and the matrix instructions. -/
theorem meets_EngineIssue :
    let s := withCtx start fun c => { c with inject := true }
    let f : Form := { reads := [2#8, 3#8, 4#8, 5#8, 6#8, 7#8], slotA := [2#8, 3#8], slotB := [4#8, 5#8, 6#8, 7#8] }
    let m := withReg (withReg start 12 (Val.clean 1#32)) 13 (Val.clean 0x400000#32)
    let o := withReg (withReg start 12 (Val.clean 256#32)) 14 (Val.clean 64#32)
    let x := fun (z : State) (c : Code) => (z.warp.valueOf c 0).bits
    (Met start [(.xcopyG2s 2#8 4#8 7#6, f), (.xcopyS2g 2#8 4#8 7#6, f), (.xcopyS2c 2#8 4#8 7#6, f), (.xcopyMcast 2#8 4#8 7#6, f), (.xcopyRemote 2#8 4#8 7#6, f), (.xloadw 2#8 4#8 7#6 0#3, f), (.rfence, { reads := [] })] ∧
      (∀ d < 5, start.copyRefused d 7 = false) ∧ (start.myWg.tagAt 7).state ≠ 1 ∧ start.warp.acquiring = false ∧ 0 < start.myWg.wslot.length ∧
      (∀ c ∈ [2#8, 3#8, 4#8, 5#8, 6#8, 7#8], start.warp.valueOf c 0 = Val.zero)) ∧
    (Met start [(.mzero 0#4, { reads := [] }), (.mscale 0#4 2#8, { reads := [2#8, 3#8], slotA := [2#8, 3#8], wide := [2#8, 3#8] }), (.mget d0 1#8 0#4, { reads := [1#8], slotA := [1#8], dsts := [d0, 0xF1#8] }),
      (.mput 1#8 2#8 0#4, { reads := [2#8, 3#8, 1#8], slotA := [2#8, 3#8] })] ∧ 0 < start.myWg.acc.length ∧ start.queueFull = false) ∧
    (Met m [(.mloop 0#4 0#4 20#8 12#8 1#1, { reads := [20#8, 12#8, 13#8, 14#8, 15#8], slotA := [20#8] })] ∧ aopCodes 20#8 = [20#8] ∧ ctlSc (x m 12#8) = false ∧
      ctlSettag (x m 12#8) = false ∧ mloopBad m.myWg 0 20 m.warp.hints.scale.isSome 0 (x m 12#8) (x m 13#8) (x m 14#8) (x m 15#8) = false) ∧
    (Met o [(.mout 0#4 8#4 20#8 12#8, { reads := [20#8, 12#8, 13#8, 14#8, 15#8], slotA := [20#8] })] ∧
      moutBad o.myWg 8 (x o 20#8).toNat (x o 12#8) (x o 14#8) (x o 15#8) = false ∧ o.myWg.hasTag (bitsAt (x o 12#8).toNat 16 6) = true) ∧
    Met s [(.mperturb 1#8 2#8, { reads := [1#8, 2#8], slotA := [1#8], slotB := [2#8] })] ∧ (s.ctx s.myTag).inject = true :=
  ⟨⟨met_of (by decide +kernel), by decide +kernel, by decide +kernel, by decide +kernel, by decide +kernel, by decide +kernel⟩, ⟨met_of (by decide +kernel), by decide +kernel, by decide +kernel⟩,
   ⟨met_of (by decide +kernel), by decide, by decide +kernel, by decide +kernel, by decide +kernel⟩, ⟨met_of (by decide +kernel), by decide +kernel, by decide +kernel⟩, met_of (by decide +kernel), by decide +kernel⟩

/-- Barriers and the grid barrier: barrier 0 of a launch that declares one, EXPECT at both ends of its range. -/
theorem meets_Barriers :
    let s := fun v : Nat => withReg start 1 (Val.clean (BitVec.ofNat 32 v))
    let g := withLaunch start fun l => { l with gbars := [Bar.fresh 1] }
    Met start [(.barArrive 0#4, { reads := [] }), (.barWait 0#4, { reads := [], point := true }), (.barSync 0#4, { reads := [], point := true })] ∧ 0 < start.myWg.bars.length ∧ 0 < start.myLaunch.krec.nbar ∧
    start.released start.warp.ref false = true ∧ Met (s 1) [(.barExpect 1#8 0#4, { reads := [1#8], slotA := [1#8] })] ∧ ((s 1).warp.valueOf 1#8 0) = Val.clean 1#32 ∧
    Met (s 4095) [(.barExpect 1#8 0#4, { reads := [1#8], slotA := [1#8] })] ∧ ((s 4095).warp.valueOf 1#8 0) = Val.clean 4095#32 ∧
    Met g [(.gbar, { reads := [], point := true })] ∧ g.myWg.replica < g.myLaunch.gbars.length ∧ g.released g.warp.ref false = true :=
  ⟨met_of (by decide +kernel), by decide +kernel, by decide +kernel, by decide +kernel, met_of (by decide +kernel), by decide +kernel, met_of (by decide +kernel), by decide +kernel, met_of (by decide +kernel), by decide +kernel, by decide +kernel⟩
/-- Tasks: 32 records at 0x9000 that are legal, with a join count of 32. -/
theorem meets_Tasks :
    let s0 := withLaunch (start.modMem fun d => { d with base := d.base.setBytes 0x9000 ({ addr := 0, entry := 0x8000, frame := 0, join := 32, flags := 0, parent := 0 } : TaskRec).bytes }) fun l =>
      { l with krec := { l.krec with taskw := 1 }, pkt := { l.pkt with tquota := 32 } }
    let s := withReg s0 2 (Val.clean 0x9000#32)
    let op := fun c : Code => (s.warp.rawSource c).1
    let q := fun wr => State.ways 32 32 wr (taskAddr [op 2#8, op 3#8]) (lanesOf fullMask) s []
    let m := s.mem.view s.myDie
    let f : Form := { reads := [2#8, 3#8], slotA := [2#8, 3#8], dsts := [d0] }
    let run := (q true).2.foldl (fun (z : State × List TaskOut) a => match a.way with
      | .mem _ ((pa, _) :: _) =>
        let r := z.1.joincAt 0 1 s.myDie s.myTag [] a.off.toNat pa
        (r.1, z.2 ++ [r.2])
      | _ => z) ((q true).1, [])
    Met s [(.spawn d0 2#8, f), (.joinc d0 2#8, f)] ∧ s.Plain ∧ s.warp.acquiring = false ∧ s.released s.warp.ref false = true ∧ s.myLaunch.paired = false ∧
    (∀ a ∈ (q false).2, ∃ sp p ps, a.way = .mem sp (p :: ps)) ∧ (∀ a ∈ (q true).2, ∃ sp p ps, a.way = .mem sp (p :: ps)) ∧ m.token 0x9000 = none ∧
    s.myLaunch.krec.taskOk (parseTask 0x9000 (m.bytes 0x9000 32)) = true ∧ (parseTask 0x9000 (m.bytes 0x9000 32)).cont = false ∧ (s.launchOf 1).outstanding + 32 ≤ s.myLaunch.pkt.tquota ∧
    (s.queuedOn 0 1).length + 32 ≤ 256 ∧ run.2 = (List.range 32).reverse.map TaskOut.value ∧ s.locate 0x9000 = none :=
  ⟨met_of (by decide +kernel), plain_of (by decide +kernel), by decide +kernel, by decide +kernel, by decide +kernel, allMem_of (by decide +kernel), allMem_of (by decide +kernel), by decide +kernel, by decide +kernel,
   by decide +kernel, by decide +kernel, by decide +kernel, by decide +kernel, unmapped_of (by decide +kernel) _⟩
/-- The regions that the commits find: closed, open with the flag set, and open and calm. -/
def region (opened flag : Bool) (replays : Nat) (nsvc : Bool) : State :=
  start.modFocus fun w => { w with region := { w.region with opened := opened, flag := flag, replays := replays, nsvc := nsvc, rpc := 0x7000#64 } }
/-- RegionAndCommitX and CommitBranch, with the flag clear and set. -/
theorem meets_RegionAndCommitX : (∀ fl ∈ [true, false], Met (region false fl 0 false) [(.commitX, { reads := [] }), (.commitP, { reads := [] }), (.rgn, { reads := [] })] ∧ (region false fl 0 false).warp.partialGroup = false ∧
    (region false fl 0 false).commitStall = false ∧ (region false fl 0 false).myLaunch.paired = false ∧ (region false fl 0 false).rackOf (region false fl 0 false).warp.ref = [] ∧
    (region false fl 0 false).warp.region.overflowed = false) := by
  intro fl h
  rcases List.mem_cons.mp h with rfl | h
  · exact ⟨met_of (by decide +kernel), by decide +kernel, by decide +kernel, by decide +kernel, by decide +kernel, by decide +kernel⟩
  · rw [List.mem_singleton.mp h]
    exact ⟨met_of (by decide +kernel), by decide +kernel, by decide +kernel, by decide +kernel, by decide +kernel, by decide +kernel⟩
theorem meets_CommitBranch : Met (region true true 0 false) [(.commitB 0x1FFFF#17, { reads := [] })] ∧ Met (region true false 0 false) [(.commitB 0x1FFFF#17, { reads := [] })] ∧
    (region true true 0 false).warp.partialGroup = false ∧ (region true true 0 false).commitWaits = false ∧ (region true false 0 false).commitWaits = false :=
  ⟨met_of (by decide +kernel), met_of (by decide +kernel), by decide +kernel, by decide +kernel, by decide +kernel⟩
/-- CommitAgain: COMMIT.R at the last replay and past it, a warp that waits, and a paired COMMIT.P whose partner has ended or is late. -/
theorem meets_CommitAgain :
    let f : Form := { reads := [], point := true }
    let p := withLaunch (withWg start fun g => { g with partner := 3 }) fun l => { l with paired := true }
    let waits := fun (k : WaitKind) => p.modFocus fun w => { w with wait := k, region := { w.region with opened := true } }
    let late := { waits (.commitP 0 false) with ctrs := [2 ^ 20, 0, 0, 0, 0], parked := [{ start.warp with ref := { wg := 3, warp := 0 } }] }
    Met (region true true 14 false) [(.commitR 5#17, f)] ∧ Met (region true true 15 false) [(.commitR 5#17, f)] ∧ Met (region true false 0 false) [(.commitR 5#17, f)] ∧ (region true true 14 false).commitWaits = false ∧
    (let s := waits (.commitR 5#17)
     s.warp.wait = .commitR 5#17 ∧ s.warp.status = .running ∧ 0 ≤ (BitVec.ofNat 32 (s.ctx s.myTag).srDone - BitVec.ofNat 32 s.warp.region.sreq).toInt) ∧
    (Met p [(.commitP, { reads := [] })] ∧ p.warp.partialGroup = false ∧ p.commitStall = false ∧ p.myLaunch.paired = true ∧ p.partnerOf p.warp.ref ≠ p.warp.ref) ∧
    (let s := waits (.commitP 0 true)
     s.warp.wait = .commitP 0 true ∧ s.getWarp (s.partnerOf s.warp.ref) = none ∧ s.warp.region.overflowed = false ∧ s.rackOf s.warp.ref = [] ∧ s.rackOf (s.partnerOf s.warp.ref) = []) ∧
    late.warp.wait = .commitP 0 false ∧ late.pairReady late.warp = false ∧ 0 + 2 ^ 20 ≤ late.ctr late.myDie ∧ late.warp.region.opened = true ∧ late.warp.region.mismatched = false :=
  ⟨met_of (by decide +kernel), met_of (by decide +kernel), met_of (by decide +kernel), by decide +kernel, by decide +kernel, ⟨met_of (by decide +kernel), by decide +kernel, by decide +kernel, by decide +kernel, by decide +kernel⟩,
   by decide +kernel, by decide +kernel, by decide +kernel, by decide +kernel, by decide +kernel, by decide +kernel⟩
/-- RegionAndCommitX: a paired COMMIT.P whose time has passed, of a warp whose region may be replayed beside a partner at the same count, and of one whose region has been. -/
theorem meets_PairedTimeout :
    let p := withLaunch (withWg start fun g => { g with partner := 3 }) fun l => { l with paired := true }
    let late := fun again : Bool =>
      { p.modFocus (fun w => { w with wait := .commitP 0 false, region := { w.region with opened := true, mismatched := again } }) with
        ctrs := [2 ^ 20, 0, 0, 0, 0], parked := [{ start.warp with ref := { wg := 3, warp := 0 }, region := { start.warp.region with opened := true } }] }
    let y := ((late false).getWarp ((late false).partnerOf (late false).warp.ref)).getD default
    ((late false).warp.wait = .commitP 0 false ∧ (late false).warp.status = .running ∧ (late false).pairReady (late false).warp = false ∧ 0 + 2 ^ 20 ≤ (late false).ctr (late false).myDie ∧ (late false).warp.region.opened = true ∧
      (late false).warp.region.mismatched = false ∧ (late false).partnerOf (late false).warp.ref ≠ (late false).warp.ref) ∧
    ((late false).getWarp ((late false).partnerOf (late false).warp.ref) = some y ∧ y.status = .running ∧ y.region.opened = true ∧ y.region.mismatched = false ∧ y.region.pcount = (late false).warp.region.pcount ∧ (late false).svc.wordErrors = []) ∧
    ((late true).pairReady (late true).warp = false ∧ 0 + 2 ^ 20 ≤ (late true).ctr (late true).myDie ∧ (late true).warp.region.mismatched = true) := by decide +kernel
/-- PoisonTests, of clean lanes and of poisoned ones. -/
theorem meets_PoisonTests :
    let p := withReg start 1 (Val.poison 5#32)
    let clean := fun s : State => maskOf fun l => fullMask.has l && !(s.warp.valueOf 1#8 l).psn
    Met start [(.ptest d0 1#8, formU d0 1#8), (.pinfoCause d0 1#8, formU d0 1#8), (.pinfoEntry d0 1#8, formU d0 1#8), (.pfill d0 1#8, formU d0 1#8), (.pset d0 1#8, formU d0 1#8)] ∧ clean start ≠ 0#32 ∧
    Met p [(.pset d0 1#8, formU d0 1#8)] ∧ clean p = 0#32 ∧ start.warp.acquiring = false ∧ start.drained start.warp.ref = true ∧ (∀ c ∈ start.cores, c.storeQ = []) :=
  ⟨met_of (by decide +kernel), by decide +kernel, met_of (by decide +kernel), by decide +kernel, by decide +kernel, by decide +kernel⟩
/-- SuppressedAndSwitched: a warp that has been diverged for 1,023 issues. -/
def diverged : State := start.modFocus fun w => { w with divCount := 1023, pcs := List.replicate 16 pc0 ++ List.replicate 16 (pc0 + 8#64) }
theorem meets_SuppressedAndSwitched :
    start.warp.group = some (fullMask, pc0) ∧ start.warp.mayIssue = true ∧ start.warp.hints.unpinned.head? = some 0 ∧ diverged.warp.mayIssue = true ∧ diverged.warp.switched = none ∧ diverged.warp.converged = false ∧ 1023 ≤ diverged.warp.divCount ∧
    diverged.warp.livePcs.any (fun q => decide (diverged.warp.switchMark.toNat < q.toNat) && diverged.warp.livePcs.any fun y => decide (y.toNat < q.toNat)) = true :=
  by decide +kernel

/-- SuppressedAndSwitched: a warp that has no group above its mark, and two groups above the lowest. -/
theorem meets_Switched_wraps :
    let s := diverged.modFocus fun w => { w with switchMark := pc0 + 16#64, pcs := List.replicate 16 pc0 ++ List.replicate 8 (pc0 + 8#64) ++ List.replicate 8 (pc0 + 16#64) }
    s.warp.mayIssue = true ∧ s.warp.switched = none ∧ s.warp.converged = false ∧ 1023 ≤ s.warp.divCount ∧ s.warp.livePcs.any (fun q => decide (s.warp.switchMark.toNat < q.toNat)) = false ∧
      s.warp.livePcs.any (fun q => decide (q = pc0 + 8#64)) = true := by decide +kernel
/-- A sector write of device memory at 0x9000, and the memory of `start` once it has entered the view of die 0. -/
def wr0 : SectorWrite := { addr := 0x9000, mask := 0xFFFFFFFF#32, data := List.replicate 32 7#8, poison := none }
def behind : State := start.modMem fun d => d.enter 0 wr0
theorem behind_shaped : behind.mem.shaped := ⟨by decide +kernel, by decide +kernel, by decide +kernel⟩
/-- WalksStayInFrames, in SPACE 0 and SPACE 1, and for a store. -/
theorem meets_WalksStayInFrames :
    let e := fun sp : Nat => ({ tag := 1, space := sp, page := 0, frame := 0, wr := true, ex := true, mt := 0, nopeer := false } : TlbEntry)
    start.walk 0 1 0 0x9000#64 = .leaf (e 0) ∧ start.walk 0 1 1 0xFFFF#64 = .leaf (e 1) ∧ (start.lookup (some 0) 0 1 0 0x9000#64 true).2 = .leaf (e 0) ∧ (start.lookup none 4 1 1 0#64 true).2 = .leaf (e 1) :=
  by decide +kernel
/-- ViewsOfDies: a memory with nothing in its log, and one where die 1 may apply what die 0 wrote. -/
theorem meets_ViewsOfDies : start.mem.shaped ∧ behind.mem.shaped ∧ (∀ k, 1 ≤ k → k < 5 → behind.mem.mayApply k 0 = true) ∧ behind.mem.mayApply 0 0 = false :=
  ⟨⟨by decide +kernel, (fun l hl => by cases hl), by decide +kernel⟩, behind_shaped, by
    intro k h1 h5
    have : k = 1 ∨ k = 2 ∨ k = 3 ∨ k = 4 := by omega
    rcases this with rfl | rfl | rfl | rfl <;> decide +kernel, by decide +kernel⟩
/-- What a fetch finds for SPACE 0 of context 1. -/
def fetchAt (s : State) (pc : DWord) : WalkRes := (s.lookup (some (s.coreOf s.warp.ref.wg)) s.myDie s.myTag 0 pc false).2
/-- FetchAndWalkEvents: a page that is fetched, one that may not be executed, a walk through a frame of another function, a missing page, a held fetch
that is resolved, and a walk of the firmware that misses. -/
theorem meets_FetchAndWalkEvents :
    let noEx := start.modMem fun d => { d with base := d.base.setBytes 0x4000 (natLE 8 7) }
    let other := start.modSvc fun v => v.setFrame 0 5 0#18
    let held := (start.modFocus fun w => { w with fetchHold := some 3 }).modCtx 1 fun c => { c with srDone := 3, srSeq := 3 }
    let far := start.modFocus fun w => { w with pcs := List.replicate 32 0x1000000000#64 }
    start.warp.fetchHold = none ∧ start.myWg.tag < start.ctxs.length ∧ start.warp.group = some (fullMask, pc0) ∧ start.warp.mayIssue = true ∧
    (∃ e, fetchAt start pc0 = .leaf e ∧ e.ex = true) ∧ start.svc.errors = [] ∧ (∀ pa, start.locate pa = none) ∧ (start.ctx start.myTag).injArm = false ∧
    (∃ e, fetchAt noEx pc0 = .leaf e ∧ e.ex = false) ∧ fetchAt other pc0 = .fault .protection ∧ (far.warp.group = some (fullMask, 0x1000000000#64) ∧ fetchAt far 0x1000000000#64 = .fault .pageMiss) ∧ (start.ctx start.myTag).eqEn = false ∧
    (held.warp.fetchHold = some 3 ∧ 0 ≤ (BitVec.ofNat 32 (held.ctx held.myTag).srDone - BitVec.ofNat 32 3).toInt ∧ ∃ e, fetchAt held pc0 = .leaf e ∧ e.ex = true) ∧
    (start.ctx 1).state = 1 ∧ start.walk 4 1 2 0#64 = .fault .pageMiss ∧ (start.ctx 1).pending 2 0 = none :=
  ⟨by decide +kernel, by decide +kernel, by decide +kernel, by decide +kernel, ⟨{ tag := 1, space := 0, page := 0, frame := 0, wr := true, ex := true, mt := 0, nopeer := false }, by decide +kernel, rfl⟩,
   by decide +kernel, unmapped_of (by decide +kernel), by decide +kernel, ⟨{ tag := 1, space := 0, page := 0, frame := 0, wr := true, ex := false, mt := 0, nopeer := false }, by decide +kernel, rfl⟩,
   by decide +kernel, by decide +kernel, by decide +kernel, ⟨by decide +kernel, by decide +kernel, ⟨{ tag := 1, space := 0, page := 0, frame := 0, wr := true, ex := true, mt := 0, nopeer := false }, by decide +kernel, rfl⟩⟩,
   by decide +kernel, by decide +kernel, by decide +kernel⟩
/-- A result of v1 and d0 that has come in every lane. -/
def come : PendRes :=
  { id := 9, dsts := [1#8, d0], words := List.replicate 2 (splat (Val.clean 5#32)), mask := fullMask, left := 0#32, shapes := [.g, .g], pc := pc0, faults := [], flags := false, acq := false, wideAcq := false, dropped := false }
/-- An SMAP of one page on entry 0 of the workgroup of `start`. -/
def job : SmapJob := { id := 9, wg := 2, warp := { wg := 2, warp := 0 }, pc := pc0, entry := 0, gbase := 0x8000, soff := 0, len := 4096, pre := false, tag := 7, registered := false }
/-- A valid entry that maps the page at 0x8000. -/
def mapped : SmapEntry := { valid := true, gbase := 0x8000, soff := 0, len := 4096, pre := false, pages := [8], lines := [] }
/-- MemoryEvents: an entry at the head of a store queue, with and without a line that the host caches, a write that another die may apply, and a
result that has come. -/
theorem meets_MemoryEvents :
    let e : StoreEntry := { id := 9, grp := 1, warp := { wg := 2, warp := 0 }, quad := 0, tag := 1, act := .mem wr0 }
    let q := start.modCore 0 fun c => { c with storeQ := [e] }
    let h := q.modSvc fun v => { v with directory := [0x9000 / 128] }
    let p := start.modFocus fun w => { w with pend := [come] }
    let rs := (List.range come.dsts.length).map fun k => ResWord.mk (come.dsts.getD k 0#8) (come.shapes.getD k .u) (laneOf (come.words.getD k []))
    ((q.coreAt 0).storeQ[0]? = some e ∧ q.locate wr0.addr = none ∧ wr0.addr / 128 ∉ q.svc.directory) ∧ (wr0.addr / 128 ∈ h.svc.directory ∧ h.svc.backInv = []) ∧ behind.mem.mayApply 1 0 = true ∧ behind.mem.shaped ∧
    p.warp.pend.find? (fun q => q.id == 9) = some come ∧ come.dsts.Nodup ∧ come.half = 0#32 ∧ (∀ ws ∈ come.words, ws.length = 32) ∧ (∀ l < 32, come.mask.has l = true) ∧
    Warp.takesAll come.mask rs { p.warp with pend := p.warp.pend.filter fun q => q.id != come.id } :=
  ⟨⟨by decide +kernel, unmapped_of (by decide +kernel) _, by decide +kernel⟩, by decide +kernel, by decide +kernel, behind_shaped, by decide +kernel, by decide, rfl, by decide +kernel, by decide +kernel, by
    refine ⟨fun _ => ?_, ⟨fun h => ?_, trivial⟩⟩
    · decide +kernel
    · exact absurd h (by decide)⟩
/-- MemoryEvents: an SMAP whose entry holds the same mapping, one that overlaps another, one that registers, with prefill and without, and a line that is absent. -/
theorem meets_StashEvents :
    let s := { start with smaps := [job], nextId := 10 }
    let m := fun f : SmapEntry → SmapEntry => withWg s fun g => { g with smap := updAt g.smap 0 f }
    let o := withWg s fun g => { g with smap := updAt g.smap 1 fun _ => { mapped with gbase := 0 } }
    let pf := { s with smaps := [{ job with pre := true }] }
    let q := State.rangePages s.myWg.core 0 s.myWg.tag 1 job.gbase s []
    (s.smaps.find? (fun x => x.id == 9) = some job ∧ s.wgOf 2 = some s.myWg ∧ s.myWg.saved = false ∧ (∀ k ∈ s.smaps, job.id ≤ k.id)) ∧
    ((m fun _ => mapped).myWg.smap[0]? = some mapped) ∧
    ((o.myWg.smap.getD 0 mapped).valid = false ∧ ∃ x ∈ o.myWg.smap, x.valid = true ∧ job.soff < x.soff + x.len ∧ x.soff < job.soff + job.len) ∧
    ((∀ x ∈ s.myWg.smap, x.valid = false) ∧ 0 < s.myWg.smap.length ∧ s.svc.errors = [] ∧ (s.ctx s.myTag).injArm = false ∧ (∀ p ∈ q.2, p.2.2 = none) ∧ q.2.filterMap (fun p => p.2.1) = [8] ∧ s.pageMapped 8 = false ∧ s.myWg.hasTag 7 = true ∧ (∀ w ∈ s.allWarps, w.wait = .none)) ∧
    pf.smaps.map SmapJob.pre = [true] ∧ ((m fun _ => mapped).svc.errors = [] ∧ (m fun _ => mapped).myWg.stash.wf = true) :=
  ⟨⟨by decide +kernel, by decide +kernel, by decide +kernel, by decide +kernel⟩, by decide +kernel, ⟨by decide +kernel, ⟨{ mapped with gbase := 0 }, by decide +kernel, by decide +kernel, by decide +kernel, by decide +kernel⟩⟩,
   ⟨by decide +kernel, by decide +kernel, by decide +kernel, by decide +kernel, by decide +kernel, by decide +kernel⟩, by decide +kernel, by decide +kernel⟩

/-- A shape record of one row of 64 bytes at 0x9000, towards node 9 on channel 0. -/
def shape (rank : Nat) : List Byte :=
  natLE 8 0x9000 ++ natLE 2 0xFFF8 ++ [5#8, BitVec.ofNat 8 rank] ++ natLE 2 0 ++ natLE 2 1 ++ natLE 4 64 ++ List.replicate 16 0#8 ++ natLE 4 0 ++ List.replicate 32 0#8 ++
    natLE 2 64 ++ List.replicate 8 0#8 ++ natLE 2 9 ++ List.replicate 108 0#8
/-- A copy of the workgroup of `start` whose record stands at 0xA000. -/
def copy (dir : Nat) : Copy :=
  { id := 9, wg := 2, warp := { wg := 2, warp := 0 }, pc := pc0, word := 0#32, xloadw := false, dir := dir, slot := 0, tag := 7, recAddr := 0xA000, args := List.replicate 4 0#32, arr := none
    chan := 0, record := none, cursor := 0, sectors := 0, idx0 := 0#32, sent := 0, fetched := [], asked := [], psn := false, causes := 0#64, tokens := [], finished := false }
/-- `start` with the copy, and with `bs` in the record cache of its core. -/
def copying (c : Copy) (bs : List Byte) : State := { (start.modCore 0 fun k => { k with recCache := [(1, 0xA000, bs)] }) with copies := [c], nextId := 10 }
/-- CopyEvents: a record that is good and one that is not, towards the stash and towards another node whose channel the context owns or not; its first sector; and its end. -/
theorem meets_CopyEvents :
    let c := copy 0
    let s := copying c (shape 1)
    let z := copying (copy 4) (shape 1)
    let o := z.modFab fun f => { f with send := [{ node := 9, chan := 0, tag := 1, count := 0#32 }] }
    let r := parseRec (shape 1)
    let m := copying { c with record := some (shape 1) } (shape 1)
    let k := chunkOf r (c.coords r) true 0
    let n := chunkOf r (c.coords r) true 1
    let d := copying { c with finished := true } (shape 1)
    (s.copies.find? (fun x => x.id == 9) = some c ∧ s.wgOf 2 = some s.myWg ∧ s.myWg.saved = false ∧ c.finished = false ∧ c.record = none ∧ s.copyBehind c = false) ∧
    (s.takeRecord c = (s, .bytes (shape 1)) ∧ r.ok s.fabric.node 0 false 0 = true ∧ (parseRec (shape 0)).ok s.fabric.node 0 false 0 = false ∧ ((copying c (shape 0)).takeRecord c).2 = .bytes (shape 0)) ∧
    (r.ok z.fabric.node 4 false 0 = true ∧ (z.takeRecord (copy 4)).2 = .bytes (shape 1) ∧ z.ownsSend 1 r.dnode 0 = false ∧ o.ownsSend 1 r.dnode 0 = true) ∧
    ((∀ pa, m.locate pa = none) ∧ (∃ e, (m.lookup (some 0) 0 1 0 k.off false).2 = .leaf e) ∧
      m.copies.find? (fun x => x.id == 9) = some { c with record := some (shape 1) } ∧ m.copyAwaits { c with record := some (shape 1) } = false ∧ m.copyBehind c = false ∧ m.svc.errors = [] ∧
      m.cores.all (fun k => k.storeQ.all fun e => e.upto == 0) = true ∧ (m.ctx 1).injArm = false ∧ ((∀ e ∈ m.myWg.smap, e.valid = false) ∧ m.myWg.stash.wf = true) ∧ r.expand = false ∧ 1 < r.chunks ∧ k.bits = 128 ∧ n.bits = 128 ∧
      n.row = k.row ∧ n.at' = k.at' + 16 ∧ n.off = k.off + 16#64 ∧ k.off.toNat % 32 = 0 ∧ 0 + k.row * r.pitch + k.at' + 32 ≤ (m.launchOf m.myWg.launch).krec.stashk * 65536 ∧
      resolvePlace m.fabric.node r.place k.off = .own 0 k.off) ∧
    (d.myWg.hasTag 7 = true ∧ ∀ w ∈ d.allWarps, w.wait = .none) :=
  ⟨by decide +kernel, by decide +kernel, by decide +kernel,
   ⟨unmapped_of (by decide +kernel), ⟨{ tag := 1, space := 0, page := 0, frame := 0, wr := true, ex := true, mt := 0, nopeer := false }, by decide +kernel⟩, by decide +kernel⟩, by decide +kernel⟩
/-- A matrix queue entry on slot 0 of the workgroup of `start`. -/
def mat (k : MatKind) : MatEntry :=
  { (MatEntry.blank 9 2 { wg := 2, warp := 0 } pc0 (.mzero 0#4) k 0) with act := fullMask, rows := splat (Val.clean 63#32), res := 9 }
/-- `start` with that entry at the head of its core's queue. -/
def queued (e : MatEntry) : State := { (start.modCore 0 fun c => { c with queue := [e] }) with nextId := 10 }
/-- MatrixEvents: a step of generated ones of an integer format, its end with and without a tag, and a tag that follows. -/
theorem meets_MatrixSteps :
    let e := { (mat .mloop) with fmt := 5, aop := 0xFA, ctl := [0x20000001#32, 0#32, 0#32, 0#32] }
    let s := queued e
    let f := fun c : Word => queued { e with ctl := [c, 0#32, 0#32, 0#32], done := 1 }
    let ready := fun (z : State) (x : MatEntry) => z.matEntry 9 = some x ∧ z.slotTurn x = true ∧ 0 < ctlCount (x.ctl.getD 0 0#32) ∧ ctlCount (x.ctl.getD 0 0#32) ≤ x.done ∧ (z.slotRows x).length = 64 ∧
      ∀ r ∈ z.slotRows x, r.length = 64
    let d : TagDone := { id := 9, wg := 2, tag := 7, psn := false, causes := 0#64, warp := { wg := 2, warp := 0 }, flags := 0 }
    let t := { start with tagDones := [d] }
    (s.matEntry 9 = some e ∧ s.mloopReady e = true ∧ (∀ x ∈ s.queueOf e, ¬ x.id < e.id) ∧ (s.cores.getD s.myWg.core Core.fresh).queue.find? (fun x => x.id == 9) = some e ∧ s.wgOf 2 = some s.myWg ∧ 0 < s.myWg.acc.length ∧
      s.svc.wordErrors = [] ∧ ctlBgen 0x20000001#32 = 2 ∧ e.perturb = none) ∧
    ready (f 0x20007001#32) { e with ctl := [0x20007001#32, 0#32, 0#32, 0#32], done := 1 } ∧ ready (f 0x20047001#32) { e with ctl := [0x20047001#32, 0#32, 0#32, 0#32], done := 1 } ∧
    (t.tagDones.find? (fun x => x.id == 9) = some d ∧ t.wgOf 2 = some t.myWg ∧ t.myWg.saved = false ∧ t.myWg.hasTag 7 = true ∧ t.warp.ref = d.warp ∧ ∀ w ∈ t.allWarps, w.wait = .none) :=
  by decide +kernel
/-- MatrixEvents: MZERO, MPUT, MSCALE, MGET and MOUT in their turn. -/
theorem meets_SlotAccesses :
    let o := { (mat .mout) with fmt := 8, ctl := [0x70100#32, 0#32, 0x1000#32, 0#32] }
    let p : PendRes := { come with dsts := [d0, 0xF1#8], left := fullMask }
    let g := (queued (mat .mget)).modFocus fun w => { w with pend := [p] }
    let ok := fun e : MatEntry => (queued e).matEntry 9 = some e ∧ (queued e).slotTurn e = true ∧ (queued e).wgOf 2 = some (queued e).myWg ∧ 0 < (queued e).myWg.acc.length ∧ (queued e).svc.wordErrors = [] ∧ (queued e).warp.ref = e.warp
    ok (mat .mzero) ∧ ok (mat .mput) ∧ (∀ l < 32, (laneOf (mat .mput).rows l).psn = false) ∧ ok (mat .mscale) ∧ ok (mat .mget) ∧ ok o ∧
    (g.warp.pend.find? (fun q => q.id == 9) = some p ∧ p.mask = (mat .mget).act ∧ p.half = 0#32 ∧ p.dsts.Nodup ∧ p.shapes.length = 2 ∧ ∀ rs : List ResWord, (∀ r ∈ rs, isCab r.dst = false) → ∀ w, Warp.takesAll p.mask rs w) ∧
    ((∀ m ∈ (queued o).myWg.smap, m.valid = false) ∧ (queued o).myWg.stash.wf = true ∧ o.a0 % 32 = 0 ∧ outPitch o % 32 = 0 ∧ outRow o.fmt ≤ outPitch o ∧ 0 < outRows o ∧
      ∀ k < outRows o, o.a0 + k * outPitch o + outRow o.fmt ≤ ((queued o).launchOf (queued o).myWg.launch).krec.stashk * 65536) :=
  ⟨by decide +kernel, by decide +kernel, by decide +kernel, by decide +kernel, by decide +kernel, by decide +kernel,
   ⟨by decide +kernel, rfl, rfl, by decide, by decide, fun rs hr w => takes_drawer _ rs w hr⟩, ⟨by decide +kernel, by decide +kernel, by decide, by decide, by decide, by decide, by decide +kernel⟩⟩

/-- A receive channel from node 7 that context 1 owns, with four writes counted. -/
def chan7 : RecvChan := { node := 7, chan := 1, tag := 1, count := 4#32, hold := 100, cause := none }
def receiving (c : RecvChan) (f : Fabric → Fabric) : State := start.modFab fun x => f { x with recv := [c] }
/-- A release flag from node 7 that covers `n` writes, to 0xA000. -/
def flagOf (n : Word) : FlagPacket := { src := 7, chan := 1, off := 0xA000#64, value := 1#64, count := n }
/-- The leaf that maps frame 0. -/
def leaf0 : TlbEntry := { tag := 1, space := 0, page := 0, frame := 0, wr := true, ex := true, mt := 0, nopeer := false }
/-- MemoryEvents: a line of an entry whose page translates. -/
theorem meets_StashEvents_fill :
    let s := withWg start fun g => { g with smap := updAt g.smap 0 fun _ => mapped }
    let g := s.myWg
    (g.smap[0]? = some mapped ∧ mapped.valid = true ∧ 31 < mapped.len / 128 ∧ mapped.lines = [] ∧ s.svc.errors = [] ∧ (s.ctx g.tag).injArm = false ∧ g.stash.wf = true) ∧
      ∃ l, (s.lookup (some g.core) (dieOf g.core) g.tag 0 (BitVec.ofNat 64 (mapped.gbase + 31 / 32 * 4096)) false).2 = .leaf l :=
  ⟨by decide +kernel, leaf0, by decide +kernel⟩
/-- FabricArrivals, a release flag with nothing before it and with a write before it; counted writes to a page and to one of no frame of the function; flags that are early, met, and met with a cause;
a held flag that is served and one that has waited its time; notices; a response and an observation. -/
theorem meets_FabricArrivals :
    let j : FlagSend := { id := 9, warp := { wg := 2, warp := 0 }, node := 9, pkt := flagOf 4#32 }
    let w : WritePacket := { src := 7, chan := 1, index := 5#32, off := 0x9000#64, sectors := [wr0], atom := none }
    let e : StoreEntry := { id := 8, grp := 1, warp := { wg := 2, warp := 0 }, quad := 0, tag := 1, act := .remote 9 { w with index := 4#32 } }
    let a := start.modFab fun x => { x with sends := [j] }
    let b := a.modCore 0 fun c => { c with storeQ := [e] }
    let r := receiving chan7 id
    let c := receiving { chan7 with cause := some (.bounds, 0#32) } id
    let h : HeldFlag := { id := 9, pkt := flagOf 6#32, entered := 0, matched := none, expired := false }
    let m := (receiving chan7 fun x => { x with waiting := [{ h with matched := some 3 }] }).modCtx 1 fun c => { c with srDone := 3, srSeq := 3 }
    let x := { receiving chan7 (fun x => { x with easel := [h] }) with ctrs := [0, 0, 0, 0, 190000] }
    ((a.fabric.sends.find? (fun k => k.id == 9) = some j ∧ a.copies = [] ∧ ∀ c ∈ a.cores, c.storeQ = []) ∧ (∃ c ∈ b.cores, ∃ e ∈ c.storeQ, e.act = .remote 9 { w with index := 4#32 })) ∧
    ((start.recvOf 7 1 = none ∧ start.fabric.link = [] ∧ start.fabric.easel = []) ∧ ((r.ctx 1).state = 1 ∧ (r.ctx 1).dying = none ∧ r.svc.errors = [] ∧ (r.ctx 1).injArm = false) ∧ (r.ctx 1).csEn = false ∧ (∀ pa, r.locate pa = none) ∧ r.svc.directory = [] ∧ r.recvOf 7 1 = some chan7) ∧
    ((r.lookup none 4 1 0 0x9000#64 true).2 = .leaf leaf0 ∧ (r.lookup none 4 1 0 0x10000#64 true).2 = .fault .protection ∧ (4#32 - (flagOf 6#32).count).toInt < 0 ∧ 0 ≤ (4#32 - (flagOf 4#32).count).toInt ∧
      c.recvOf 7 1 = some { chan7 with cause := some (.bounds, 0#32) }) ∧
    (m.fabric.waiting.find? (fun x => x.id == 9) = some { h with matched := some 3 } ∧ 0 ≤ (BitVec.ofNat 32 (m.ctx 1).srDone - BitVec.ofNat 32 3).toInt ∧ (m.lookup none 4 1 0 0xA000#64 true).2 = .leaf leaf0) ∧
    (x.fabric.easel = [h] ∧ h.entered + chan7.hold * 1900 ≤ x.ctr 4) :=
  ⟨⟨⟨by decide +kernel, by decide +kernel, by decide +kernel⟩, ⟨{ Core.fresh with storeQ := [_] }, List.mem_of_getElem? (i := 0) (by rfl), _, List.mem_singleton.mpr rfl, rfl⟩⟩,
   ⟨by decide +kernel, by decide +kernel, by decide +kernel, unmapped_of (by decide +kernel), by decide +kernel, by decide +kernel⟩, ⟨by decide +kernel, by decide +kernel, by decide, by decide, by decide +kernel⟩,
   ⟨by decide +kernel, by decide +kernel, by decide +kernel⟩, ⟨by decide +kernel, by decide +kernel⟩⟩
/-- FabricArrivals, of notices: a lane that holds something, an event queue that is off, full and with room; a packet, a back-invalidation and an observation that are awaited. -/
theorem meets_NoticesAndObservations :
    let n : LossNotice := { kind := 1, cause := 15, node := 9, chan := 0, count := 4#32, arrival := 2#32, off := 0xA000#64 }
    let s := fun f : Ctx → Ctx => (start.modFab fun x => { x with send := [{ node := 9, chan := 0, tag := 1, count := 0#32 }] }).modCtx 1 f
    let on := fun wr : Word => s fun c => { c with eqEn := true, eqBase := 0xA000#64, eqWrite := wr }
    let b := start.modSvc fun v => { v with backInv := [(9, 5)] }
    (start.modFab fun x => { x with link := [.lossNoticeArrival n] }).fabric.link ≠ [] ∧ ((s id).fabric.easel = [] ∧ (s id).fabric.link = [] ∧ 1 < (s id).ctxs.length ∧ ((s id).ctx 1).eqEn = false) ∧
    (((on 16#32).ctx 1).eqEn = true ∧ (((on 16#32).ctx 1).eqWrite - ((on 16#32).ctx 1).eqRead).toNat = 2 ^ ((on 16#32).ctx 1).eqLog2n) ∧
    ((((on 15#32).ctx 1).eqWrite - ((on 15#32).ctx 1).eqRead).toNat ≠ 2 ^ ((on 15#32).ctx 1).eqLog2n ∧ ((on 15#32).lookup none 4 1 0 0xA1E0#64 true).2 = .leaf leaf0 ∧ 0xA1E0 % 32 = 0 ∧ (on 15#32).locate 0xA1E0 = none ∧
      (on 15#32).memWf = true ∧ (on 15#32).mem.shaped) ∧ b.svc.backInv.find? (fun x => x.1 == 9) = some (9, 5) :=
  ⟨by decide +kernel, by decide +kernel, by decide +kernel, ⟨by decide +kernel, by decide +kernel, by decide, unmapped_of (by decide +kernel) _, by decide +kernel, ⟨by decide +kernel, (fun l hl => by cases hl), by decide +kernel⟩⟩, by decide +kernel⟩
/-- RemoteAccesses: a request on no channel, on a channel of a killed context and of a live one; and an answer for a load of another node and of the host, in time and late. -/
theorem meets_RemoteAccesses :
    let r := receiving chan7 id
    let k := (receiving chan7 id).modCtx 1 fun c => { c with state := 2 }
    let q : Request := { id := 9, warp := { wg := 2, warp := 0 }, res := some 9, copy := none, queue := none, lanes := [0, 31], node := 9, off := 0#64, raw := 0#64, place := 0#16, size := 4, sub := none, atom := none, issued := 0, die := 0,
                         tag := 1, pc := pc0, heldSeq := 0 }
    let s := fun (n ctr : Nat) => { (start.modFab fun x => { x with requests := [{ q with node := n }] }).modFocus (fun w => { w with pend := [{ come with left := 0x80000001#32 }] }) with ctrs := [ctr, 0, 0, 0, 0] }
    let ok := fun (n ctr : Nat) => (s n ctr).requestOf 9 = some { q with node := n } ∧ (s n ctr).warp.ref = q.warp ∧ (s n ctr).myLaunch.paired = false
    (r.recvOf 7 2 = none ∧ k.recvOf 7 1 = some chan7 ∧ (k.ctx 1).state ≠ 1) ∧
    ((r.recvOf 7 1 = some chan7 ∧ (r.ctx 1).state = 1 ∧ (r.ctx 1).dying = none) ∧ (r.lookup none 4 1 0 0x10000#64 false).2 = .fault .protection ∧ (r.lookup none 4 1 0 0x9000#64 false).2 = .leaf leaf0 ∧ r.svc.errors = [] ∧ (∀ pa, r.locate pa = none) ∧
      (r.ctx 1).injArm = false) ∧ start.requestOf 9 = none ∧ ok 9 0 ∧ (s 9 0).ctr 0 < q.issued + 38000 ∧ ok 9 38000 ∧ q.issued + 38000 ≤ (s 9 38000).ctr 0 ∧ ok 10000 0 :=
  ⟨by decide +kernel, ⟨by decide +kernel, by decide +kernel, by decide +kernel, by decide +kernel, unmapped_of (by decide +kernel), by decide +kernel⟩, by decide +kernel, by decide +kernel, by decide +kernel,
   by decide +kernel, by decide +kernel, by decide +kernel⟩
/-- WaitTests: a WAITV of every lane on 0x9000, whose condition no lane meets, all lanes meet, and whose time has passed. -/
theorem meets_WaitTests :
    let s : Nat → Nat → Bool → Nat → State := fun c n b k => waiting c n b k
    let p : PendRes := { come with dsts := [d0, 0xF1#8], left := fullMask }
    let ways := fun z : State => (State.ways 4 4 false (fun l => (z.warp.places.getD 0 0#16, .inr (z.warp.waitv.offs.getD l 0#64))) (lanesOf (z.warp.waitMask &&& ~~~ z.warp.waitv.fin)) z []).2
    let ok := fun z : State => z.warp.status = .running ∧ z.warp.wait = .waitv ∧ z.warp.pend.getLast? = some p ∧ p.mask = z.warp.waitMask ∧ p.half = 0#32 ∧ z.warp.waitv.late = false ∧ 0 < z.warp.waitv.timeout ∧ z.warp.waitv.vals.length = 32 ∧ z.warp.waitMask &&& ~~~ z.warp.waitv.fin ≠ 0#32
    (ok (s 0 0 true 1) ∧ (s 0 0 true 1).Plain ∧ (s 0 0 true 1).myLaunch.paired = false ∧ (s 0 0 true 1).ctr (s 0 0 true 1).myDie < 1024 ∧ (∀ a ∈ ways (s 0 0 true 1), ∃ sp x xs, a.way = .mem sp (x :: xs)) ∧ waitCond 0 ((start.mem.view 0).readVal 0x9000 4).bits 0#32 = true) ∧
    (ok (s 1 0 true 1) ∧ (s 1 0 true 1).Plain ∧ (∀ a ∈ ways (s 1 0 true 1), ∃ sp x xs, a.way = .mem sp (x :: xs)) ∧ ((start.mem.view 0).readVal 0x9000 4).psn = false ∧ waitCond 1 ((start.mem.view 0).readVal 0x9000 4).bits 0#32 = false) ∧
    (let z := s 1 1024 false 1
     ok z ∧ z.warp.waitv.first = false ∧ 1024 ≤ z.ctr z.myDie ∧ (z.ctx z.myTag).csEn = false) ∧ ∀ rs : List ResWord, (∀ r ∈ rs, isCab r.dst = false) → ∀ w, Warp.takesAll p.mask rs w :=
  ⟨⟨by decide +kernel, plain_of (by decide +kernel), by decide +kernel, by decide +kernel, allMem_of (by decide +kernel), by decide +kernel⟩,
   ⟨by decide +kernel, plain_of (by decide +kernel), allMem_of (by decide +kernel), by decide +kernel, by decide +kernel⟩, by decide +kernel, fun rs hr w => takes_drawer _ rs w hr⟩

/-- A launch packet of one cluster of one workgroup of 32 threads, with its kernel record at 0xB000. -/
def packet (flags schedn gx : Nat) : List Byte :=
  natLE 4 0x4C4C4543 ++ natLE 2 1 ++ natLE 2 flags ++ natLE 8 0xB000 ++ natLE 4 gx ++ natLE 2 1 ++ natLE 2 1 ++ natLE 2 32 ++ natLE 2 1 ++ natLE 2 1 ++ [1#8, 1#8, 1#8, 1#8, BitVec.ofNat 8 schedn, 0#8] ++
    natLE 4 0 ++ natLE 8 0 ++ natLE 8 0xC000 ++ natLE 8 0xD000 ++ List.replicate 64 0#8
/-- Its kernel record, with code at 0x8000. -/
def kernel : List Byte :=
  natLE 4 0x4B4C4543 ++ natLE 2 1 ++ natLE 2 0 ++ natLE 8 0x8000 ++ natLE 8 0x8000 ++ natLE 4 256 ++ [240#8, 128#8, 0#8, 1#8, 1#8, 1#8, 1#8, 8#8] ++ List.replicate 12 0#8 ++ natLE 4 0 ++ natLE 4 0xFFFFFFFF ++ List.replicate 200 0#8
/-- Two size classes, of at most 8 and of at most 16. -/
def classes : List Byte :=
  let row := fun max : Nat => natLE 4 max ++ natLE 4 1 ++ natLE 2 1 ++ natLE 2 1 ++ List.replicate 4 0#8 ++ natLE 8 0xB000 ++ List.replicate 8 0#8
  row 16 ++ row 8
/-- `start` with no other queue, `bs` as the packet of queue 0's ring, and the kernel record, the classes and a size in memory. -/
def ringing (bs : List Byte) (size : Nat) (f : Queue → Queue) : State :=
  { (start.modMem fun d => { d with base := (((d.base.setBytes 0xA000 bs).setBytes 0xB000 kernel).setBytes 0xC000 classes).setBytes 0xD000 (natLE 4 size) }) with
    queues := [f { Queue.fresh with en := true, base := 0xA000#64, place := 0xFFF8#16, ctx := 1, widx := 1#32 }], cores := [Core.fresh] }
/-- LaunchAdmission, of heads: a queue that may not be read, a packet past the mark, one that breaks a check, one that stands with its kernel record, and one that waits for its size class. -/
theorem meets_LaunchHeads :
    let p := parsePacket (packet 0 0 1)
    let p2 := parsePacket (packet 2 2 0)
    let s := ringing (packet 0 0 1) 5 id
    let got := fun z : State => z.queueRead 0 ((z.queue 0).base + BitVec.ofNat 64 ((z.queue 0).ridx.toNat % 2 ^ (z.queue 0).log2n * 128)) 128
    (start.mayTake (start.queue 0) = false) ∧ (s.mayTake (s.queue 0) = true ∧ (s.queue 0).place.toNat / 8 = 0x1FFF ∧ (s.queue 0).place.toNat % 8 = 0 ∧ 0 < s.queues.length ∧ (s.queue 0).drain = false) ∧
    ((got s).2 = .bytes (packet 0 0 1) ∧ packetOk (packet 0 0 1) p = true ∧ p.hintn = 0 ∧ p.schedn = 0 ∧ p2.schedn ≠ 0 ∧ p2.phase = true ∧ packetOk (packet 2 2 0) p2 = true ∧ packetOk (packet 0 0 0) (parsePacket (packet 0 0 0)) = false) :=
  ⟨by decide +kernel, by decide +kernel, by decide +kernel⟩
/-- A packet at the head of queue 0 of a device with one hardware cluster left. -/
def lastCluster : State := (ringing (packet 0 0 1) 5 id).modSvc fun v => { v with failedClusters := (List.range 64).drop 1 }
/-- LaunchAdmission, of the kernel record of a packet that stands. -/
theorem meets_LaunchHeads_record :
    let p := parsePacket (packet 0 0 1)
    let v := lastCluster
    (v.queueRead 0 (BitVec.ofNat 64 p.krec) 256).2 = .bytes kernel ∧ krecOk kernel (parseKrec kernel) p = true := by decide +kernel
/-- LaunchAdmission: that kernel record's launch has a place. -/
theorem meets_LaunchHeads_fits : let v := lastCluster
    v.neverFits 1 (v.ctx 1).csPair (parseKrec kernel) (parsePacket (packet 0 0 1)) = false := by decide +kernel
/-- LaunchAdmission: a ring whose page is missing, and one in a frame of another function. -/
theorem meets_LaunchHeads_waits :
    let got := fun z : State => z.queueRead 0 ((z.queue 0).base + BitVec.ofNat 64 ((z.queue 0).ridx.toNat % 2 ^ (z.queue 0).log2n * 128)) 128
    (got (ringing [] 5 fun q => { q with base := 0x1000000000#64 })).2 = .wait ∧ ∃ c o t, (got (ringing [] 5 fun q => { q with base := 0x10000#64 })).2 = .fail c o t :=
  ⟨by decide +kernel, ⟨2, 0x10000#64, 0#32, by decide +kernel⟩⟩
/-- LaunchAdmission, of a head that waits for its size class. -/
theorem meets_LaunchHeads_size :
    let p2 := parsePacket (packet 2 2 0)
    let h : Head := { pkt := p2, krec := none, met := [], chosen := false, schedIx := 0, sizeWord := 0#32, gdim := p2.gdim, kaddr := p2.krec }
    let c := ringing (packet 2 2 0) 5 fun q => { q with head := some h }
    (c.queue 0).head = some h ∧ (c.queue 0).hold = none ∧ h.chosen = false ∧ h.met = [] ∧ h.size = none ∧ ((c.modMem DevMem.sync).queueRead 0 (BitVec.ofNat 64 p2.sizeAddr) 4).2 = .bytes (natLE 4 5) ∧
      (c.sizeWord 0 h).2 = .bytes (natLE 4 5) ∧ ((c.sizeWord 0 h).1.queueRead 0 (BitVec.ofNat 64 p2.schedTab) (32 * p2.schedn)).2 = .bytes classes ∧
      schedClean classes 0 = true ∧ schedClean classes 1 = true ∧ schedMax classes 0 = 16 ∧ schedMax classes 1 = 8 ∧ leNat (natLE 4 5) = 5 := by
  decide +kernel
/-- A queue whose head is ready, of a launch that is cooperative or not. -/
def ready (flags : Nat) : State :=
  let p := parsePacket (packet flags 0 1)
  ringing [] 0 fun q => { q with head := some { pkt := p, krec := some (parseKrec kernel), met := [], chosen := true, schedIx := 0, sizeWord := 0#32, gdim := p.gdim, kaddr := p.krec } }
/-- A launch whose first cluster is still to be placed. -/
def unplaced : State := (ready 0).modLaunch 1 fun l => { l with placed := 0 }
/-- LaunchAdmission: a head that comes next, one that is placed whole and one of 2^30 clusters that cannot be, and a cluster that hardware cluster 1 takes. -/
theorem meets_LaunchAdmission :
    let q : Rounds := ((ready 0).nextAdmit.map Prod.snd).getD default
    let whole := fun s : State => match (s.queue 0).head with
      | some h => ({ s with nextId := s.nextId + 2, launches := s.launches ++ [s.launchFrom 0 h (parseKrec kernel)], rounds := ((ready 1).nextAdmit.map Prod.snd).getD default }.modQueue 0 Queue.pass).placeWhole (s.launchFrom 0 h (parseKrec kernel))
      | none => none
    let full := { ready 1 with cores := List.replicate 256 { Core.fresh with enabled := false } }
    let l := (unplaced.launchOf 1)
    (ready 0).nextAdmit = some (0, q) ∧ (ready 0).eligible 0 = true ∧ (ready 1).nextAdmit.isSome = true ∧ (whole (ready 1)).isSome = true ∧ (∀ g ∈ (ready 1).wgs, g.launch ≠ (ready 1).nextId) ∧
    ((full.queue 0).head.map fun h => (h.pkt.coop, ({ full with launches := full.launches ++ [full.launchFrom 0 h (parseKrec kernel)] } : State).placeWhole (full.launchFrom 0 h (parseKrec kernel)))) = some (true, none) ∧
    (unplaced.launches.find? (fun x => x.id == 1) = some l ∧ l.pkt.coop = false ∧ l.placed < clusterTotal l.pkt ∧ (unplaced.placeCluster l l.placed 1).isSome = true ∧ (unplaced.placeCluster l l.placed 63).isSome = true ∧ l.paired = false) :=
  by decide +kernel

/-- LaunchAndTaskEvents: a workgroup whose warp has ended, and a launch whose workgroup has ended, with an event counter or without, and with an event queue or without. -/
theorem meets_LaunchEnds :
    let e := start.modFocus fun w => { w with status := .ended }
    let c := fun (ctr : Nat) (q : Bool) => (withLaunch (withWg start fun g => { g with ended := true }) fun l => { l with pkt := { l.pkt with doneCtr := ctr, doneAdd := 1 } }).modCtx 1 fun x => { x with eqEn := q, eqBase := 0xA000#64 }
    let ok := fun s : State => s.launches.find? (fun x => x.id == 1) = some s.myLaunch ∧ s.complete s.myLaunch = true ∧ s.myLaunch.tag < s.ctxs.length ∧ s.myLaunch.pkt.doneCtr % 64 < (s.ctx 1).ectr.length
    (e.wgOf 2 = some e.myWg ∧ e.mayEnd e.myWg = true) ∧ ok (c 191 true) ∧ ok (c 0 false) ∧ ((c 191 true).ctx 1).eqEn = true ∧ (((c 191 true).ctx 1).eqWrite - ((c 191 true).ctx 1).eqRead).toNat ≠ 2 ^ ((c 191 true).ctx 1).eqLog2n ∧
    (({ c 191 true with mem := (c 191 true).mem.sync } : State).lookup none 4 1 0 0xA000#64 true).2 = .leaf leaf0 ∧ ((c 0 false).ctx 1).eqEn = false :=
  by decide +kernel
/-- The record of a task that joins at 0x9000. -/
def record : TaskRec := { addr := 0xA000, entry := 0x8000, frame := 0, join := 0, flags := 0, parent := 0x9000 }
/-- `start` with a task slot beside the issuing warp. -/
def slot (st : WarpStatus) (at' : Option Nat) : Warp := { start.warp with ref := { wg := 2, warp := 1 }, isTask := true, status := st, task := if st = .idle then none else some record, joinAt := at' }
/-- LaunchAndTaskEvents, of tasks: a record at the head of the core's queue and an idle slot; a ring with a record and an empty queue; and a task that joins for the first time and again. -/
theorem meets_TaskEvents :
    let t := { (start.modCore 0 fun c => { c with taskQ := [(1, record)] }) with parked := [slot .idle none] }
    let r := withLaunch start fun l => { l with ring := [0xA000], outstanding := 1, pkt := { l.pkt with tring := 0xA000 } }
    let j := fun at' : Option Nat => { (start.modMem fun d => { d with base := d.base.setBytes 0x9000 ({ record with join := 2 } : TaskRec).bytes }) with parked := [slot .joining at'], ctrs := [1024, 0, 0, 0, 0] }
    let ok := fun at' : Option Nat => (j at').getWarp { wg := 2, warp := 1 } = some (slot .joining at') ∧ (j at').drained { wg := 2, warp := 1 } = true ∧ (slot .joining at').held = none ∧ (slot .joining at').late = [] ∧ record.parent % 32 = 0 ∧ (j at').svc.errors = [] ∧ ((j at').ctx 1).injArm = false ∧
      (({ j at' with mem := (j at').mem.sync } : State).lookup (some 0) 0 1 0 0x9000#64 true).2 = .leaf leaf0 ∧ ((j at').mem.sync.view 0).token 0x9000 = none ∧ ((j at').mem.sync.view 0).nat 0x9010 4 = 2
    (t.getWarp { wg := 2, warp := 1 } = some (slot .idle none) ∧ t.wgOf 2 = some t.myWg ∧ t.queuedOn 0 1 = [record] ∧ t.idleSlots 0 1 = [slot .idle none] ∧ 4 ≤ (slot .idle none).n ∧ t.launches.find? (fun y => y.id == 1) = some t.myLaunch) ∧
    (r.launches.find? (fun y => y.id == 1) = some r.myLaunch ∧ 0 < r.cores.length ∧ r.mayRefill r.myLaunch 0 = true ∧
      (r.launchBytes 1 (Origin.device 4) (BitVec.ofNat 64 (r.myLaunch.pkt.tring + 32 * (r.myLaunch.ringHead % r.myLaunch.pkt.tringn))) 32).2 = .bytes (List.replicate 32 0#8)) ∧
    ok none ∧ ok (some 0) ∧ 0 + 1024 ≤ (j (some 0)).ctr 0 ∧ (∀ pa, (j none).locate pa = none) ∧ (∀ pa, (j (some 0)).locate pa = none) ∧ (j none).memWf = true ∧ (j none).mem.shaped :=
  ⟨by decide +kernel, by decide +kernel, by decide +kernel, by decide +kernel, by decide +kernel, unmapped_of (by decide +kernel), unmapped_of (by decide +kernel), by decide +kernel, ⟨by decide +kernel, (fun l hl => by cases hl), by decide +kernel⟩⟩
/-- A unit of the launch of `start`, and `start` with it. -/
def unit0 (st : UnitState) : ClusterUnit := { ClusterUnit.fresh 5 0 0 with state := st }
def unitState (st : UnitState) (f : Launch → Launch) : State := withLaunch start fun l => f { l with units := [unit0 st] }
/-- Preemption, as it is decided: a unit that drains, one that is saved, one that is flushed and one that is saved late; one with a commit that waits; a drain past its bound and before it; and a warp that may be taken. -/
theorem meets_PreemptionDecided :
    let d := withWg (unitState .running fun l => { l with pkt := { l.pkt with pbound := 1 } }) fun g => { g with progress := 65536#32 }
    let s := unitState .running id
    let f := fun r : Bool => unitState .running fun l => { l with pkt := { l.pkt with pbound := 1 }, krec := { l.krec with restart := r } }
    let c := s.modFocus fun w => { w with wait := .commitP 0 false }
    let x := fun ctr : Nat => { unitState .draining (fun l => { l with pkt := { l.pkt with pbound := 1 } }) with ctrs := [0, 0, 0, 0, ctr] }
    let w := (unitState .saving id).modFocus fun w => { w with atPoint := true, drawer := List.replicate 8 Slot.fresh, latch := List.replicate 3 Slot.fresh }
    let gs := fun z : State => z.liveUnit z.myLaunch (unit0 .running)
    let ok := fun z : State => z.unitAt 5 = some (z.myLaunch, unit0 .running) ∧ ∀ w ∈ z.unitWarps z.myLaunch (unit0 .running), w.commitWait = none
    (ok d ∧ d.drainEstimate (gs d) = some 0) ∧ (ok s ∧ s.drainEstimate (gs s) = none ∧ s.myLaunch.pkt.pbound = 0) ∧
    (ok (f true) ∧ ok (f false) ∧ (f true).drainEstimate (gs (f true)) = none ∧ (f true).saveTime (f true).myLaunch (gs (f true)) = none ∧ (f false).drainEstimate (gs (f false)) = none ∧
      (f false).saveTime (f false).myLaunch (gs (f false)) = none ∧ (f true).myLaunch.pkt.pbound ≠ 0) ∧
    ((s.ctx s.myLaunch.tag).func = 0 ∧ s.victimNow 5 = false ∧ c.unitAt 5 = some (c.myLaunch, unit0 .running) ∧ ∃ w ∈ c.unitWarps c.myLaunch (unit0 .running), w.commitWait.isSome = true) ∧
    ((x 1900).unitAt 5 = some ((x 1900).myLaunch, unit0 .draining) ∧ 0 + 1 * 1900 ≤ (x 1900).ctr 4 ∧ (x 1899).unitAt 5 = some ((x 1899).myLaunch, unit0 .draining) ∧ (x 1899).ctr 4 < 0 + 1 * 1900) ∧
    (w.getWarp w.warp.ref = some w.warp ∧ w.unitOfWarp w.warp.ref = some (unit0 .saving) ∧ w.warp.status = .running ∧ w.warp.wait = .none ∧ w.warp.bare = true ∧ w.warp.pend = [] ∧ w.warp.held = none ∧ w.warp.late = [] ∧ (w.launchOf ((w.wgOf w.warp.ref.wg).getD default).launch).paired = false ∧
      start.warp.atPoint = false ∧ c.warp.commitWait.isSome = true) :=
  by decide +kernel
/-- Preemption, as it is done: a unit whose warp is taken, with a save pool and without; one that is flushed; and one that is away, which hardware cluster 1 takes. -/
theorem meets_PreemptionDone :
    let taken := fun z : State => (withWg (withLaunch z fun l => { l with krec := { l.krec with stashk := 0 } }) fun g => { g with acc := [], wslot := [] }).modFocus fun w => { w with status := .taken }
    let v := (taken (unitState .saving fun l => l)).modSvc fun v => { v with frames := (List.range 8).map fun k => (k, 0, 0#18) }
    let p := v.modCtx 1 fun c => { c with spBase := 0x10000#64, spSize := 6#32 }
    let r := taken (unitState .saving fun l => { l with krec := { l.krec with restart := true } })
    let n := (p.areaSizes (p.liveUnit p.myLaunch (unit0 .saving))).sum
    let f := taken (unitState .flushing fun l => l)
    let a := withWg (taken (unitState .saved fun l => l)) fun g => { g with saved := true }
    (p.unitAt 5 = some (p.myLaunch, unit0 .saving) ∧ p.maySave p.myLaunch (unit0 .saving) = true ∧ p.poolPlace 1 n = some 0 ∧ (p.poolPages 1 { Origin.device 4 with launchId := p.myLaunch.pkt.launchId } 0x10000#64 0 n).2 = true) ∧
    (v.maySave v.myLaunch (unit0 .saving) = true ∧ v.poolPlace 1 n = none ∧ v.myLaunch.krec.restart = false ∧ (v.ctx 1).eqEn = false ∧ r.maySave r.myLaunch (unit0 .saving) = true ∧ r.poolPlace 1 n = none ∧ r.myLaunch.krec.restart = true) ∧
    (f.unitAt 5 = some (f.myLaunch, unit0 .flushing) ∧ (∀ g ∈ f.liveUnit f.myLaunch (unit0 .flushing), f.flushReady g = true ∧ f.queuedOn g.core 1 = [] ∧ f.wgOf g.id = some g) ∧ (f.ctx 1).eqEn = false) ∧
    (a.unitAt 5 = some (a.myLaunch, unit0 .saved) ∧ (((a.modMem DevMem.sync).bringUnit a.myLaunch (unit0 .saved) 1).map fun r => r.unitAt 5) = some (a.unitAt 5)) :=
  by decide +kernel

/-- KillAndScrub: a live context with a workgroup, one that is not live, and each kind of error; and a page that may move home and one that may not. -/
def latent (k : ErrorKind) : State := start.modSvc fun v => { v with errors := [{ sector := 0x480, kind := k }] }
/-- `start` with tables of five levels, whose leaf maps frame 1. -/
def deep : State :=
  (start.modMem fun d => { d with base := ((d.base.setBytes 0x4000 (natLE 8 0x6001)).setBytes 0x6000 (natLE 8 0xE001)).setBytes 0xE000 (natLE 8 0x1000F) }).modSvc fun v =>
    { v with frames := [(0, 0, 0#18), (1, 0, 0#18), (2, 0, 0#18)] }
/-- `start` with nothing running. -/
def quiet : State := { deep with warp := Warp.empty, parked := [], wgs := [], launches := [] }
theorem meets_KillAndScrub :
    (start.ctx 3).state ≠ 1 ∧ (start.ctx 1).state = 1 ∧ 1 < start.ctxs.length ∧ (∀ g ∈ start.wgs, g.tag = 1 → ∃ l ∈ start.launches, l.id = g.launch ∧ l.tag = 1) ∧ start.svc.errors = [] ∧
    (∀ k ∈ [ErrorKind.corrected, .cleanCopy, .dram], (latent k).svc.errors.find? (fun x => x.sector == 0x480) = some { sector := 0x480, kind := k } ∧ (latent k).svc.dies.length = 4) ∧
    ((latent .dram).locate 0x9000 = none ∧ (latent .dram).memWf = true ∧ (latent .dram).mem.shaped ∧ ((latent .dram).ctx 0).csEn = false ∧ ∀ c ∈ (latent .dram).ctxs, c.eqEn = false) ∧
    ((∀ c ∈ quiet.cores, c.storeQ = []) ∧ quiet.memWf = true ∧ quiet.wgs = [] ∧ quiet.mem.sync.log = [] ∧ (({ quiet with mem := quiet.mem.sync } : State).walk 4 1 0 0#64 = .leaf { leaf0 with frame := 0x10000 }) ∧ (quiet.ctx 1).roots.getD 0 none = some 0 ∧
      leafEntry quiet.mem.sync.base 0 5 0 = some 0xE000 ∧ quiet.mayMove 1 1 2 = true ∧ quiet.mayMove 1 1 3 = false ∧ (∀ p ∈ quiet.mem.sync.base.poison, p.1 / 2048 ≠ 1)) :=
  ⟨by decide +kernel, by decide +kernel, by decide +kernel, by decide +kernel, by decide +kernel, by decide +kernel,
   ⟨unmapped_of (by decide +kernel) _, by decide +kernel, ⟨by decide +kernel, (fun l hl => by cases hl), by decide +kernel⟩, by decide +kernel, by decide +kernel⟩, by decide +kernel⟩
/-- A request of context 1 to another node, for its warp's result 9. -/
def request1 : Request :=
  { id := 9, warp := { wg := 2, warp := 0 }, res := some 9, copy := none, queue := none, lanes := [0], node := 9, off := 0#64, raw := 0#64, place := 0#16, size := 4, sub := none, atom := none, issued := 0, die := 0, tag := 1, pc := pc0,
    heldSeq := 0 }
/-- `start` with that request outstanding, and its context's kill begun. -/
def dyingOne (ask : Bool) : State :=
  { withCtx start (fun c => { c with dying := some { cause := 0x13, report := none, ends := [], seen := [], lines := [] } }) with fabric := { start.fabric with requests := if ask then [request1] else [] } }
/-- KillAndScrub: a live context with a request outstanding; one whose kill has begun, with one and with none; and an error in a core's arrays. -/
theorem meets_Kill_waits :
    let a := { start with fabric := { start.fabric with requests := [request1] } }
    let e : LatentError := { sector := 0x480, kind := .corrected, inCore := true }
    let x := start.modSvc fun v => { v with errors := [e] }
    ((a.ctx 1).state = 1 ∧ (a.ctx 1).dying = none ∧ (∃ r ∈ a.fabric.requests, r.tag = 1)) ∧ ((start.ctx 1).dying = none ∧ (start.ctx 3).dying = none ∧ start.fabric.requests = [] ∧ start.queuedHost 1 = false ∧ start.svc.observing = []) ∧
    ((∃ d, ((dyingOne true).ctx 1).dying = some d ∧ d.lines = []) ∧ (∃ r ∈ (dyingOne true).fabric.requests, r.tag = 1)) ∧
    ((∃ d, ((dyingOne false).ctx 1).dying = some d ∧ d.lines = []) ∧ (dyingOne false).fabric.requests = [] ∧ (dyingOne false).svc.observing = []) ∧
    (x.svc.errors.find? (fun y => y.sector == 0x480) = some e ∧ x.svc.dies.length = 4 ∧ x.stale (homeDie (0x480 * 32)) = [] ∧ ∀ y ∈ x.svc.errors, y.sector / 4 ≠ 0 / 4) ∧
    ((latent .dram).stale (homeDie (0x480 * 32)) = [] ∧ ∀ k ∈ [ErrorKind.corrected, .cleanCopy, .dram], ((latent k).strongly { sector := 0x480, kind := k }).kind = k) :=
  ⟨⟨by decide +kernel, by decide +kernel, request1, List.mem_singleton.mpr rfl, rfl⟩, by decide +kernel, ⟨⟨_, rfl, rfl⟩, request1, List.mem_singleton.mpr rfl, rfl⟩, ⟨⟨_, rfl, rfl⟩, rfl, by decide +kernel⟩, by decide +kernel, by decide +kernel⟩
/-- FailuresAndReset: a state as after a launch, with 256 cores and 64 contexts, and a census shadow. -/
theorem meets_FailuresAndReset :
    let s := start.modSvc fun v => { v with shadow := List.replicate 768 0#32 }
    (∀ r ∈ [Resource.core 0 0, .core 3 63, .cluster 3 15, .link 0 1, .link 3 4, .channel 3 7], r.real = true) ∧ (∀ r ∈ [Resource.core 4 0, .core 0 64, .cluster 0 16, .link 1 1, .link 1 0, .channel 0 8], r.real = false) ∧
    s.cores.length = 256 ∧ s.ctxs.length = 64 ∧ s.svc.health ≤ 3 ∧ (∀ g ∈ s.wgs, ∀ l ∈ s.launches, l.id = g.launch → l.tag = g.tag) ∧ (∃ g ∈ s.wgs, g.saved = false ∧ g.ended = false ∧ g.core = 0) ∧
    s.svc.runs = true ∧ (s.modSvc fun v => { v with safelight := false }).svc.runs = false ∧ s.svc.shadow.length = 768 ∧
    s.svc.cgen.getLsbD 0 = false ∧ (s.modSvc fun v => { v with cgen := 1#32 }).svc.cgen.getLsbD 0 = true :=
  ⟨by decide +kernel, by decide +kernel, by decide +kernel, by decide +kernel, by decide +kernel, by decide +kernel, ⟨start.myWg, by decide +kernel⟩, by decide +kernel⟩
/-- FailuresAndReset: nothing is outstanding, and every hardware cluster is left or none is. -/
theorem meets_Failures_quiet : start.fabric.requests = [] ∧ start.svc.observing = [] ∧ (∀ c ∈ start.cores, c.storeQ = []) ∧ (start.ctx 1).live = true := by decide +kernel
/-- `start` with one queue. -/
def oneQueue (f : Queue → Queue) : State := { start with queues := [f { Queue.fresh with ctx := 1 }] }
/-- QueueRegisters: a queue of the pool and one of a virtual function; WIDX at both ends of what may be written; EN set with a live context and without; EN cleared; DRAIN; a busy mailbox and a free one. -/
theorem meets_QueueRegisters :
    let s := oneQueue id
    let e := oneQueue fun q => { q with en := true }
    let w := oneQueue fun q => { q with widx := 3#32 }
    let may := fun (z : State) (f : Nat) => z.present f = true ∧ (z.func f).resetting = false ∧ z.holdsQueue f 0 = true
    let b := start.modSvc fun v => { v with funcs := updAt v.funcs 0 fun x => { x with busy := true } }
    may s 0 ∧ may s 1 ∧ ¬ may s 2 ∧ may w 0 ∧ may e 0 ∧ 0 < s.queues.length ∧ ((w.queue 0).widx - (w.queue 0).ridx).toNat ≤ (16#32 - (w.queue 0).ridx).toNat ∧ (16#32 - (w.queue 0).ridx).toNat ≤ 2 ^ (w.queue 0).log2n ∧
    (2#32 - (w.queue 0).ridx).toNat < ((w.queue 0).widx - (w.queue 0).ridx).toNat ∧ 2 ^ (w.queue 0).log2n < (17#32 - (w.queue 0).ridx).toNat ∧
    ((s.queue 0).en = false ∧ s.holdsCtx 0 1 = true ∧ (s.ctx 1).live = true ∧ s.holdsCtx 0 2 = false ∧ (0x81000000#32).toNat / 2 ^ 24 % 64 = 1 ∧ (0x82000000#32).toNat / 2 ^ 24 % 64 = 2) ∧ (e.queue 0).en = true ∧ (s.queue 0).drain = false ∧
    (start.windowOpen 0 = true ∧ (start.func 0).busy = false ∧ 0 < start.svc.funcs.length) ∧ (b.windowOpen 0 = true ∧ (b.func 0).busy = true) ∧ start.svc.mailbox = [] := by decide +kernel
/-- RegisterWindows: a context that a function holds, with the injection right and without, and counters around SRDONE; a window that is open; a function that is ready and one that is resetting. -/
theorem meets_RegisterWindows :
    let s := start.modCtx 1 fun c => { c with srSeq := 5, srDone := 3 }
    let i := start.modCtx 1 fun c => { c with inject := true, injAddr := 0x9000#64 }
    let r := start.modSvc fun v => { v with funcs := updAt v.funcs 0 fun x => { x with resetting := true } }
    (s.ctxOpen 0 2 = false ∧ s.ctxOpen 0 1 = true ∧ 1 < s.ctxs.length ∧ 63 < (s.ctx 1).ectr.length) ∧
    (∀ v ∈ [3, 5], (BitVec.ofNat 32 v - BitVec.ofNat 32 (s.ctx 1).srSeq).toInt ≤ 0 ∧ 0 ≤ (BitVec.ofNat 32 v - BitVec.ofNat 32 (s.ctx 1).srDone).toInt) ∧ 0 < (6#32 - BitVec.ofNat 32 (s.ctx 1).srSeq).toInt ∧ (2#32 - BitVec.ofNat 32 (s.ctx 1).srDone).toInt < 0 ∧
    ((s.ctx 1).inject = false ∧ i.ctxOpen 0 1 = true ∧ (i.ctx 1).inject = true ∧ i.walk 4 1 0 (i.ctx 1).injAddr = .leaf leaf0 ∧ (10#32 : Word).getLsbD 3 = true ∧ (10#32 : Word).toNat % 4 < 3 ∧ (2#32 : Word).getLsbD 3 = false) ∧
    (start.windowOpen 0 = true ∧ 0 < start.svc.funcs.length ∧ start.holdsQueue 0 255 = true ∧ 255 < start.queues.length ∧ start.holdsCtx 0 1 = true ∧ 1 < start.svc.ports.length) ∧
    (start.present 2 = false ∧ start.present 0 = true ∧ (start.func 0).resetting = false ∧ start.svc.funcs.length = 18 ∧ r.present 0 = true ∧ (r.func 0).resetting = true ∧
      (r.svc.mailbox.head?.map Prod.fst) ≠ some 0 ∧ ((r.modSvc fun v => { v with mailbox := [(0, [])] }).svc.mailbox.head?.map Prod.fst) = some 0) :=
  by decide +kernel
/-- HostAccess: functions that are absent, a port that is not CXL and one that is, a context that is not held, a page that may be read, a page that may not, and a write at both ends of a sector. -/
theorem meets_HostAccess :
    let h := start.modSvc fun v => { v with funcs := updAt v.funcs 0 fun x => { x with hctx := 1 } }
    let x := h.modSvc fun v => { v with ports := updAt v.ports 0 fun p => { p with cxl := true } }
    let n := start.modSvc fun v => { v with ports := updAt v.ports 0 fun p => { p with cxl := true } }
    (start.present 2 = false ∧ start.windowOpen 0 = true ∧ (start.svc.ports.getD 0 default).cxl = false ∧ start.holdsCtx 0 (start.func 0).hctx = false ∧ n.windowOpen 0 = true ∧ n.holdsCtx 0 (n.func 0).hctx = false ∧
      (n.svc.ports.getD 0 default).cxl = true) ∧
    (∀ z ∈ [h, x], z.windowOpen 0 = true ∧ z.holdsCtx 0 (z.func 0).hctx = true ∧ (z.lookup none 4 1 0 0x10000#64 false).2 = .fault .protection ∧ (z.lookup none 4 1 0 0x9000#64 false).2 = .leaf leaf0 ∧ z.svc.errors = [] ∧
      (z.ctx 1).injArm = false ∧ (z.svc.directory.filter fun l => homeDie (l * 128) == homeDie (0x9000 / 128 * 128)).length < 2 ^ 18 ∧ (z.lookup none 4 1 0 0x9000#64 true).2 = .leaf leaf0 ∧ z.svc.directory = [] ∧ leaf0.frame % 65536 = 0 ∧
      ((z.mem.catchUp 4 0x9000).view 4).token 0x9000 = none ∧ z.memWf = true ∧ unmappedB z = true) ∧ (x.svc.ports.getD 0 default).cxl = true ∧ h.mem.shaped ∧ x.mem.shaped :=
  ⟨by decide +kernel, by decide +kernel, by decide +kernel, ⟨by decide +kernel, (fun l hl => by cases hl), by decide +kernel⟩, ⟨by decide +kernel, (fun l hl => by cases hl), by decide +kernel⟩⟩
/-- `start` with one request of function 0 at the head, its port holding the semaphore or not. -/
def asked (ws : List Word) (holder : Nat) : State := start.modSvc fun v => { v with mailbox := [(0, ws)], holder := holder }
/-- ContextCommands: CREATE with a free context and with none left, and each command on a context that the function holds, one that it does not hold and one of no program. -/
theorem meets_ContextCommands :
    let ch := [7#32, 1#32, 9#32, 0#32, 0#32, 0#32]
    let cr := [7#32, 1#32, 9#32, 0#32, 1#32, 0#32]
    let full := (asked [1#32, 0#32] 0).modSvc fun v => { v with funcs := updAt v.funcs 2 fun x => { x with quota := 62 } }
    let taken := (asked ch 0).modFab fun f => { f with send := [{ node := 9, chan := 0, tag := 5, count := 0#32 }] }
    0 < start.svc.funcs.length ∧ start.ctxs.length = 64 ∧ start.svc.mailbox = [] ∧
    ((asked [1#32, 0#32] 0).atHead 0 1 [0#32] = true ∧ (asked [1#32, 0#32] 0).held 0 + (asked [1#32, 0#32] 0).held 1 < (asked [1#32, 0#32] 0).quota 0 ∧ (start.ctx 2).state = 0 ∧ (start.ctx 1).state ≠ 0 ∧ (asked [1#32, 1#32] 0).isHolder 0 = false) ∧
    (full.atHead 0 1 [0#32] = true ∧ full.quota 0 ≤ full.held 0 + full.held 1) ∧ (∀ c ∈ [2, 3, 4, 7], ∀ n ∈ [0, 2, 64], (asked [BitVec.ofNat 32 c, BitVec.ofNat 32 n] 0).atHead 0 c [BitVec.ofNat 32 n] = true) ∧ start.holdsCtx 0 2 = false ∧ start.holdsCtx 0 1 = true ∧
    ((asked [3#32, 1#32, 0#32, 0x2000#32, 0#32] 0).atHead 0 3 [1#32, 0#32, 0x2000#32, 0#32] = true ∧ start.svc.mayUse 0 0 = true ∧ start.svc.mayUse 0 1 = false ∧ 0x10000 % 8192 = 0) ∧
    ((asked ch 0).fabric.send = [] ∧ (asked cr 0).fabric.recv = [] ∧ (asked ch 0).atHead 0 7 (ch.drop 1) = true ∧ (asked cr 0).atHead 0 7 (cr.drop 1) = true ∧ ∃ c ∈ taken.fabric.send, c.node = 9 ∧ c.chan = 0 ∧ c.tag ≠ 1) ∧
    ((asked [4#32, 1#32, 0#32, 0#32, 0#32, 1#32] 0).atHead 0 4 [1#32, 0#32, 0#32, 0#32, 1#32] = true ∧ (asked [4#32, 1#32, 0#32, 0#32, 0#32, 1#32] 0).invalWaits 0 [1#32, 0#32, 0#32, 0#32, 1#32] = false) ∧
    (asked [7#32, 1#32, 9#32, 0#32, 2#32, 0#32] 0).atHead 0 7 [1#32, 9#32, 0#32, 2#32, 0#32] = true :=
  by decide +kernel
/-- RegisterWindows, of resets: a physical function with an enabled virtual function and a queue of each, one whose request is in progress, one that resets with it, and a reset that may end. -/
theorem meets_FunctionReset :
    let v := start.modSvc fun v => { v with funcs := updAt v.funcs 2 (fun x => { x with port := some 0, queues := [255] }), ports := updAt v.ports 0 fun p => { p with vfEnable := true } }
    let s := v.modQueue 3 fun q => { q with claim := some 0 }
    let r := start.modSvc fun v => { v with funcs := updAt v.funcs 0 fun x => { x with resetting := true } }
    ((s.func 2).port = some 0 ∧ s.present 2 = true ∧ s.present 0 = true ∧ (s.func 0).resetting = false ∧ s.svc.funcs.length = 18 ∧ (s.queue 3).claim = some 0 ∧ 255 ∈ (s.func 2).queues ∧ 3 < s.queues.length ∧ 255 < s.queues.length ∧
      (s.queue 4).claim = none ∧ 4 ∉ (s.func 2).queues) ∧
    ((asked [5#32] 1).svc.mailbox ≠ [] ∧ (asked [5#32] 1).present 0 = true ∧ ((asked [5#32] 1).func 0).resetting = false) ∧ (let e := r.modSvc fun v => { v with early := [0] }
     e.present 0 = true ∧ (e.func 0).resetting = true ∧ 0 ∈ e.svc.early) ∧
    (0 ∉ r.svc.early ∧ r.ctxs.length = 64 ∧ r.fabric.requests = [] ∧ r.svc.observing = [] ∧ (∀ c ∈ r.cores, c.storeQ = []) ∧ (∀ c ∈ r.ctxs, c.dying = none) ∧ r.svc.errors = []) := by decide +kernel
/-- ContextCommands: DESTROY of a context with a request outstanding, of one whose kill has begun and still waits, and of one with nothing outstanding. -/
theorem meets_Destroy :
    let ask := fun s : State => s.modSvc fun v => { v with mailbox := [(0, [2#32, 1#32])] }
    let a := ask { start with fabric := { start.fabric with requests := [request1] } }
    let d := ask (dyingOne true)
    (a.atHead 0 2 [1#32] = true ∧ a.holdsCtx 0 1 = true ∧ (a.ctx 1).live = true ∧ ∃ r ∈ a.fabric.requests, r.tag = 1) ∧ (d.atHead 0 2 [1#32] = true ∧ d.holdsCtx 0 1 = true ∧ d.destroyWaits 0 [1#32] = true) ∧
    ((ask start).atHead 0 2 [1#32] = true ∧ (ask start).fabric.requests = [] ∧ (ask start).svc.observing = [] ∧ (ask start).queuedHost 1 = false ∧ ((ask start).ctx 1).dying = none) :=
  ⟨⟨by decide +kernel, by decide +kernel, by decide +kernel, request1, List.mem_singleton.mpr rfl, rfl⟩, by decide +kernel, by decide +kernel⟩
/-- DeviceCommands: each command of the holder, and of a function that is not; GRANT of a frame with a poisoned line and of one without; VFASSIGN and ISOLATE of function 2; an image; SHARE of a frame that is owned and of one that is not. -/
theorem meets_DeviceCommands :
    let args := [2#32, 0#32, 4#32, 0#32, 3#32, 3#32] ++ List.replicate 8 0#32
    let vf := [1#32, 0#32, 4#32, 0#32, 3#32, 3#32] ++ List.replicate 8 0#32
    let is := fun on : Word => [2#32, on]
    let ask := fun (c : Word) (a : List Word) (h : Nat) => asked (c :: a) h
    let g := (ask 5#32 [0#32, 4#32, 2#32] 1).modSvc fun v => { v.setFrame 5 3 0#18 with lpFrames := [5] }
    let i := (ask 9#32 (is 1#32) 1).modSvc fun v => { v with funcs := updAt v.funcs 2 fun x => { x with clusters := 4#64, ways := 3#16 } }
    let w := [1#32, 0x9000#32, 0#32, 64#32]
    0 < start.svc.funcs.length ∧ start.svc.funcs.length = 18 ∧ (∀ c ∈ [5, 8, 9, 10, 11, 12], (ask (BitVec.ofNat 32 c) args 0).atHead 0 c args = true ∧ (ask (BitVec.ofNat 32 c) args 0).isHolder 0 = false ∧ (ask (BitVec.ofNat 32 c) args 1).isHolder 0 = true) ∧
    (g.isHolder 0 = true ∧ g.atHead 0 5 [0#32, 4#32, 2#32] = true ∧ (g.func 0).resetting = false ∧ g.svc.lpFrames.Nodup ∧ g.grantWaits 0 [0#32, 4#32, 2#32] = false ∧ (g.svc.frame 4).1 ≠ 0 ∧ (g.svc.frame 5).1 ≠ 0 ∧ (g.svc.frame 5).1 < 18) ∧
    ((ask 8#32 vf 1).atHead 0 8 vf = true ∧ ((ask 8#32 vf 1).func 2).resetting = false ∧ (∀ x ∈ start.wgs, (start.ctx x.tag).func ≠ 2) ∧ queueMask vf = [] ∧ (∀ k < 18, 2 ≤ k → (start.func k).clusters = 0#64 ∧ (start.func k).ways = 0#16) ∧
      start.svc.quotas - (start.func 2).quota + 3 ≤ 63 - (start.held 0 + start.held 1) ∧
      2 ≤ ((List.range 16).filter fun j => !(3#16 : BitVec 16).getLsbD j && (List.range 18).all fun k => k < 2 || k == 2 || !(start.func k).ways.getLsbD j).length) ∧
    ((ask 9#32 (is 0#32) 1).atHead 0 9 (is 0#32) = true ∧ i.atHead 0 9 (is 1#32) = true ∧ (i.func 2).clusters ≠ 0#64 ∧ (i.func 2).ways ≠ 0#16 ∧ (i.svc.funcs.filter Func.isolated).length < 7 ∧ ((ask 9#32 (is 1#32) 1).func 2).clusters = 0#64) ∧
    ((ask 10#32 w 1).atHead 0 10 w = true ∧ (ask 10#32 w 1).holdsCtx 0 1 = true ∧ ((ask 10#32 w 1).hostBytes 1 4 0x9000#64 64).2 = .data (List.replicate 64 0#8) false) ∧
    ((ask 11#32 args 1).atHead 0 11 args = true ∧ (ask 12#32 args 1).atHead 0 12 args = true) ∧
    ((ask 6#32 [2#32, 0#32, 1#32, 1#32] 0).atHead 0 6 [2#32, 0#32, 1#32, 1#32] = true ∧ (start.svc.frame 0).1 = 0 ∧ (start.func 2).resetting = false ∧ (start.svc.frame 1).1 ≠ 0 ∧
      (ask 6#32 [2#32, 0#32, 1#32, 1#32] 0).shareWaits 0 [2#32, 0#32, 1#32, 1#32] = false ∧ (ask 6#32 [18#32, 0#32, 1#32, 1#32] 0).atHead 0 6 [18#32, 0#32, 1#32, 1#32] = true) :=
  by decide +kernel
/-- DeviceCommands: whatever the image check says of 64 zero bytes, one of the three cases of FWUPDATE is met. -/
theorem meets_DeviceCommands_image : let r := start.svc.admits (List.replicate 64 0#8)
    r = some true ∨ r = some false ∨ r = none := by
  simp only []
  rcases start.svc.admits (List.replicate 64 0#8) with _ | _ | _
  · exact .inr (.inr rfl)
  · exact .inr (.inl rfl)
  · exact .inl rfl
/-- DeviceCommands: a function that is resetting, whose request was in progress when its reset began or not. -/
theorem meets_DeviceCommands_resets :
    let s := fun e : List Nat => (asked [5#32, 2#32, 4#32, 2#32] 1).modSvc fun v => { v with funcs := updAt v.funcs 2 (fun x => { x with resetting := true }), early := e }
    ((s []).isHolder 0 = true ∧ (s []).atHead 0 5 [2#32, 4#32, 2#32] = true ∧ ((s []).func 2).resetting = true ∧ 2 ∉ (s []).svc.early) ∧ (2 ∈ (s [2]).svc.early ∧ (s [2]).grantWaits 0 [2#32, 4#32, 2#32] = false) := by decide +kernel
/-- ManagementResponses: a module whose Safelight runs, one without power, requests by each path, and an index at both ends of its range. -/
theorem meets_ManagementResponses : start.svc.runs = true ∧ (start.modSvc fun v => { v with powered := false }).svc.runs = false ∧ start.via = none ∧ (∀ k ∈ [1, 5], 1 ≤ k ∧ k ≤ 5) := by decide +kernel

end Sys2Proof.Test
end

section
/-!
The classes and the signs of FP32 patterns (R142, R144): FCLASS, FUNA.FABS and FUNA.FNEG.
-/
namespace Sys2Proof.Machine
open Sys2Proof

/-! ## The fields of an FP32 word -/

/-- The exponent field of an FP32 word (R100). -/
def expField (x : Word) : Nat := x.toNat / 2 ^ 23 % 256
/-- The fraction field of an FP32 word (R100). -/
def fracField (x : Word) : Nat := x.toNat % 2 ^ 23
/-- An FP32 word that is a NaN. -/
abbrev WordNaN (x : Word) : Prop := expField x = 255 ∧ fracField x ≠ 0

/-- Bit 31 of a pattern is its sign. -/
theorem sign_eq_getLsbD (x : Word) : (x.toNat / 2 ^ 31 % 2 == 1) = x.getLsbD 31 := by
  rw [BitVec.getLsbD, Nat.testBit_eq_decide_div_mod_eq, beq_eq_decide]

/-- Bit 22 of a pattern is the highest of its fraction. -/
theorem fracField_lt_eq_getLsbD (x : Word) : decide (fracField x < 2 ^ 22) = !x.getLsbD 22 := by
  rw [BitVec.getLsbD, Nat.testBit_eq_decide_div_mod_eq, ← decide_not, decide_eq_decide, fracField]
  omega

/-- What an FP32 word stands for, by its fields: bit 31 is the sign, and bit 22 is clear in a signalling NaN. -/
theorem fp32_decode_toNat (x : Word) : fp32.decode x.toNat =
    if expField x = 255 then (if fracField x = 0 then .inf (x.getLsbD 31) else .nan (!x.getLsbD 22))
    else if expField x = 0 then .fin (x.getLsbD 31) (fracField x) (-149)
    else .fin (x.getLsbD 31) (2 ^ 23 + fracField x) (expField x - 150) := by
  have fields : fp32.decode x.toNat =
      if expField x == 255 then (if fracField x = 0 then .inf (x.toNat / 2 ^ 31 % 2 == 1) else .nan (decide (fracField x < 2 ^ 22)))
      else if expField x = 0 then .fin (x.toNat / 2 ^ 31 % 2 == 1) (fracField x) (-149)
      else .fin (x.toNat / 2 ^ 31 % 2 == 1) (2 ^ 23 + fracField x) ((expField x : Int) - 127 - 23) := rfl
  rw [fields, sign_eq_getLsbD, fracField_lt_eq_getLsbD, Int.sub_sub]
  simp only [beq_iff_eq, Int.reduceAdd]

/-- The patterns that decode to a NaN. -/
theorem fp32_decode_isNaN (x : Word) : (fp32.decode x.toNat).isNaN = true ↔ WordNaN x := by
  rw [fp32_decode_toNat]
  unfold WordNaN
  split
  · split <;> simp [FVal.isNaN, *]
  · split <;> simp [FVal.isNaN, *]

/-! ## FCLASS -/

/-- The bit of R142's table for the class of an FP32 word. -/
def classBit (x : Word) : Nat :=
  if expField x = 255 then (if fracField x = 0 then (if x.getLsbD 31 then 0 else 7) else if x.getLsbD 22 then 9 else 8)
  else if expField x = 0 then (if fracField x = 0 then (if x.getLsbD 31 then 3 else 4) else if x.getLsbD 31 then 2 else 5)
  else if x.getLsbD 31 then 1 else 6

/-- A word is subnormal where its exponent field is zero and its fraction is not. -/
theorem fp32_subnormal_toNat (x : Word) : fp32.subnormal x.toNat = (expField x == 0 && fracField x != 0) := rfl

theorem fClass_toNat (x : Word) : fClass x.toNat = 2 ^ classBit x := by
  unfold fClass classBit
  rw [fp32_decode_toNat, fp32_subnormal_toNat]
  by_cases he : expField x = 255
  · by_cases hm : fracField x = 0
    · cases x.getLsbD 31 <;> simp [he, hm]
    · cases x.getLsbD 22 <;> simp [he, hm]
  · by_cases h0 : expField x = 0
    · by_cases hm : fracField x = 0
      · cases x.getLsbD 31 <;> simp [h0, hm]
      · cases x.getLsbD 31 <;> simp [h0, hm]
    · cases x.getLsbD 31 <;> simp [he, h0]

/-- FCLASS delivers one bit. -/
theorem ofNat_fClass (x : Word) : BitVec.ofNat 32 (fClass x.toNat) = 1#32 <<< classBit x := by
  rw [fClass_toNat, ← BitVec.twoPow_eq]
  exact BitVec.eq_of_toNat_eq (by simp)

/-! ## FUNA.FABS and FUNA.FNEG -/

/-- The remainder by 2^31 clears bit 31. -/
theorem ofNat_mod_eq_and (x : Word) : BitVec.ofNat 32 (x.toNat % 2 ^ 31) = x &&& 0x7FFFFFFF#32 := by
  apply BitVec.eq_of_toNat_eq
  rw [BitVec.toNat_and, show (0x7FFFFFFF#32).toNat = 2 ^ 31 - 1 from rfl, Nat.and_two_pow_sub_one_eq_mod, BitVec.toNat_ofNat]
  omega

/-- A sum with 2^31 inverts bit 31. -/
theorem ofNat_add_eq_xor (x : Word) : BitVec.ofNat 32 ((x.toNat + 2 ^ 31) % 2 ^ 32) = x ^^^ 0x80000000#32 := by
  apply BitVec.eq_of_getLsbD_eq
  intro k hk
  rw [BitVec.getLsbD_xor, show 0x80000000#32 = BitVec.twoPow 32 31 from rfl, BitVec.getLsbD_twoPow, BitVec.getLsbD_ofNat,
    Nat.testBit_mod_two_pow, Nat.add_comm]
  rcases Nat.lt_or_eq_of_le (Nat.le_of_lt_succ hk) with h | rfl
  · rw [Nat.testBit_two_pow_add_gt h]
    simp [hk, BitVec.getLsbD, Nat.ne_of_gt h]
  · rw [Nat.testBit_two_pow_add_eq]
    simp [BitVec.getLsbD]

/-- A NaN gives the canonical NaN, and any other pattern what its word operation gives (R144). -/
theorem ofNat_signed {n : Nat} {x y : Word} (h : BitVec.ofNat 32 n = y) :
    BitVec.ofNat 32 (if (fp32.decode x.toNat).isNaN then fp32.quietNaN else n) = if WordNaN x then 0x7FC00000#32 else y := by
  simp only [fp32_decode_isNaN]
  split
  · rfl
  · exact h

/-! ## The statement -/

/-- What an FP32 instruction of one source that raises no flag gives. -/
theorem Gives.fp1_quiet {s : State} {i : Instr} {act : Mask} {pc : DWord} {d a : Code} {fn : Nat → Nat} {g : Word → Word}
    (e : exec i s = .next (s.fp1 i d a fun _ x => (fn x, 0#6))) (h : ∀ x : Word, BitVec.ofNat 32 (fn x.toNat) = g x) :
    Gives s i (formU d a) act pc [⟨d, everyOther [s.warp.shapeOf a], s.warp.un a g⟩] 0#6 :=
  Gives.quiet e rfl rfl (nomOther_eq [a] s.warp) (fun l => by rw [← funext h]; rfl) fun _ _ _ => rfl

/-- Settles O14, from the fields of an FP32 word and the rule for a lane-wise instruction of one source. -/
theorem floatSignAndClass : Obligations.FloatSignAndClass :=
  ⟨fun _ _ _ _ _ =>
    ⟨Gives.fp1_quiet rfl ofNat_fClass,
      Gives.fp1_quiet rfl fun x => ofNat_signed (ofNat_mod_eq_and x),
      Gives.fp1_quiet rfl fun x => ofNat_signed (ofNat_add_eq_xor x)⟩,
    rfl, rfl⟩

end Sys2Proof.Machine
end

section
/-!
NOP and BRA (R310): the fields of their words, and what an issue of either leaves of its warp.
-/
namespace Sys2Proof.Machine
open Sys2Proof

/-! ## The fields of a word of format J -/

/-- A field of a word is a slice of its bits. -/
theorem fld_eq_extractLsb' (w : Word) (lo len : Nat) : fld w lo len = w.extractLsb' lo len := by
  rw [fld, BitVec.extractLsb', Nat.shiftRight_eq_div_pow]

/-- The OP of a word made of an OP and OFF25 (R74). -/
theorem fld_op_append (op : BitVec 7) (o : BitVec 25) : fld (op ++ o) 25 7 = op :=
  (fld_eq_extractLsb' _ _ _).trans BitVec.extractLsb'_append_eq_left

/-- The OFF25 of such a word. -/
theorem fld_off_append (op : BitVec 7) (o : BitVec 25) : fld (op ++ o) 0 25 = o :=
  (fld_eq_extractLsb' _ _ _).trans BitVec.extractLsb'_append_eq_right

/-- Under OP 0x01 an OFF25 of 0 is NOP, and any other is suppressed (R79). -/
theorem decodeWord_op_nop (o : BitVec 25) :
    decodeWord (1#7 ++ o) = if o = 0#25 then .instr .nop else .suppressed .operand := by
  simp only [decodeWord, fld_op_append, fld_off_append]
  rfl

/-- Under OP 0x02 every OFF25 is an offset of BRA. -/
theorem decodeWord_op_bra (o : BitVec 25) : decodeWord (2#7 ++ o) = .instr (.bra o) := by
  simp only [decodeWord, fld_op_append, fld_off_append]
  rfl

/-! ## The PCs after an issue -/

/-- The warp as the body finds it has its active lanes at the next word already. -/
theorem Warp.begun_setPcs (w : Warp) (f : Form) (act : Mask) (pc : DWord) :
    (w.begun f act pc).setPcs act (fun _ => pc + 4#64) = w.begun f act pc :=
  begun_keep w f act pc

/-- An instruction without a result whose body moves the active lanes, and does nothing else. -/
theorem State.Issues.moves {s : State} {i : Instr} {f : Form} {act : Mask} {pc : DWord} (h : s.Issues i f act pc)
    (body : State → Iss → List Opd → State) (hd : f.dsts = []) (next : Nat → DWord)
    (hb : body (s.modFocus fun w => w.begun f act pc) (s.warp.iss act pc) (f.reads.map fun c => (s.warp.rawSource c).1) =
      s.modFocus fun w => (w.begun f act pc).setPcs act next) :
    let t := s.issue i f false false body
    s.Stays t act next f.point ∧ t.warp.region = s.warp.region ∧ t.warp.exited = s.warp.exited := by
  obtain ⟨-, -, -, -, -, -, -, region, -⟩ := s.warp.begun_stays f act pc
  obtain ⟨stays, hr, -, hx⟩ := h.stays rfl rfl body hd next (s.warp.begun f act pc).region (s.warp.begun f act pc).retStack hb
  exact ⟨stays, hr.trans region, hx⟩

/-! ## The statement -/

/-- NOP leaves the active lanes at the next word. -/
theorem State.Issues.nop_moves {s : State} {act : Mask} {pc : DWord} (h : s.Issues .nop { reads := [] } act pc) :
    ∃ t, exec .nop s = .next t ∧ s.Stays t act (fun _ => pc + 4#64) false ∧ t.warp.region = s.warp.region ∧
      t.warp.exited = s.warp.exited :=
  ⟨_, rfl, h.moves _ rfl _ (by simp only [State.modFocus, Warp.begun_setPcs])⟩

/-- BRA takes the active lanes to its target. -/
theorem State.Issues.bra_moves {s : State} {act : Mask} {pc : DWord} {o : BitVec 25}
    (h : s.Issues (.bra o) { reads := [], point := s.warp.hints.yp } act pc) :
    ∃ t, exec (.bra o) s = .next t ∧ s.Stays t act (fun _ => pc + BitVec.ofInt 64 (4 * o.toInt)) s.warp.hints.yp ∧
      t.warp.region = s.warp.region ∧ t.warp.exited = s.warp.exited := by
  rw [← branchTarget_eq]
  exact ⟨_, rfl, h.moves _ rfl _ rfl⟩

/-- Settles O23, from what an issue without a result leaves of its warp and from the fields of the words of format J. -/
theorem nopAndBranch : Obligations.NopAndBranch :=
  ⟨fun _ _ _ _ => ⟨State.Issues.nop_moves, State.Issues.bra_moves⟩,
    decodeWord_op_nop 0#25,
    fun o ho => (decodeWord_op_nop o).trans (if_neg ho),
    decodeWord_op_bra,
    decodeWord_op_bra 0#25,
    decodeWord_op_bra 0x1FFFFFD#25⟩

end Sys2Proof.Machine
end

section
/-!
COMMIT.B (R384): what an issue that closes the region leaves, and the entries that the fallback discards.
-/
namespace Sys2Proof.Machine
open Sys2Proof

/-! ## Closing the region -/

/-- A warp whose region closes and whose active lanes go to `next`. -/
def Warp.closesAt (w : Warp) (act : Mask) (next : Nat → DWord) : Warp :=
  { w.setPcs act next with region := w.region.close }

/-- An instruction without a result whose body closes the region, takes the active lanes to `next` and leaves the cores `cs`. -/
theorem State.Issues.closes {s : State} {i : Instr} {f : Form} {act : Mask} {pc : DWord} (h : s.Issues i f act pc)
    {refuse stall : Bool} (hr : refuse = false) (hs : stall = false) (body : State → Iss → List Opd → State) (hd : f.dsts = [])
    (next : Nat → DWord) (cs : List Core)
    (hb : body (s.modFocus fun w => w.begun f act pc) (s.warp.iss act pc) (f.reads.map fun c => (s.warp.rawSource c).1) =
      { s.modFocus (fun w => (w.begun f act pc).closesAt act next) with cores := cs }) :
    let t := s.issue i f refuse stall body
    t.warp.region = s.warp.region.close ∧ s.warp.Keeps t.warp act next f.point ∧ t.warp.spill = s.warp.spill ∧
      t.cores = cs ∧ t = { s with warp := t.warp, cores := t.cores } := by
  obtain ⟨-, -, -, -, -, -, -, begunRegion, -⟩ := s.warp.begun_stays f act pc
  have cores : s.issue i f refuse stall body =
      { s.issue i f refuse stall (fun s _ _ => s.modFocus fun w => w.closesAt act next) with cores := cs } := by
    rw [h.run hr hs, h.run hr hs, hb]
    rfl
  obtain ⟨⟨keeps, spill, elsewhere⟩, region, -, -⟩ :=
    h.stays hr hs (fun s _ _ => s.modFocus fun w => w.closesAt act next) hd next _ _ rfl
  rw [cores]
  exact ⟨region.trans (congrArg Region.close begunRegion), keeps, spill, rfl, by rw [elsewhere]⟩

/-! ## The two outcomes of COMMIT.B -/

/-- What COMMIT.B does once it issues: the body of `execCommitB`, which `exec_commitB` ties it to. -/
def State.commitB (o : BitVec 17) (s : State) (iss : Iss) (_ : List Opd) : State :=
  if s.warp.region.flag then s.fallBack iss.act (branchTarget iss.pc o) else s.modRegion Region.close

theorem exec_commitB (o : BitVec 17) (s : State) :
    exec (.commitB o) s = .next (s.issue (.commitB o) { reads := [] } s.warp.partialGroup s.commitWaits (State.commitB o)) := rfl

/-- The start of an instruction changes neither whose entries a discard takes nor from which on. -/
theorem State.discardRegion_begun (s : State) (f : Form) (act : Mask) (pc : DWord) :
    (s.modFocus fun w => w.begun f act pc).discardRegion.cores = s.discardRegion.cores := by
  obtain ⟨-, -, -, -, -, -, -, region, -, ref, -, -⟩ := s.warp.begun_stays f act pc
  simp only [State.discardRegion, State.dropEntries, State.modFocus_warp, region, ref]
  rfl

/-- With FLAG clear the region closes, and the active lanes stay at the next word. -/
theorem State.commitB_clear {s : State} {f : Form} {act : Mask} {pc : DWord} {o : BitVec 17} (isClear : s.warp.region.flag = false)
    (os : List Opd) :
    State.commitB o (s.modFocus fun w => w.begun f act pc) (s.warp.iss act pc) os =
      { s.modFocus (fun w => (w.begun f act pc).closesAt act fun _ => pc + 4#64) with cores := s.cores } := by
  obtain ⟨-, -, -, -, -, -, -, region, -⟩ := s.warp.begun_stays f act pc
  simp only [State.commitB, State.modRegion, State.modFocus, Warp.closesAt, Warp.begun_setPcs, region, isClear]
  rfl

/-- With FLAG set the region closes, the active lanes go to the target, and the region's entries leave the Rack. -/
theorem State.commitB_set {s : State} {f : Form} {act : Mask} {pc : DWord} {o : BitVec 17} (isSet : s.warp.region.flag = true)
    (os : List Opd) :
    State.commitB o (s.modFocus fun w => w.begun f act pc) (s.warp.iss act pc) os =
      { s.modFocus (fun w => (w.begun f act pc).closesAt act fun _ => branchTarget pc o) with cores := s.discardRegion.cores } := by
  obtain ⟨-, -, -, -, -, -, -, region, -⟩ := s.warp.begun_stays f act pc
  rw [← s.discardRegion_begun f act pc, State.commitB, State.modFocus_warp, region, if_pos isSet]
  rfl

/-! ## The statement -/

/-- Settles O39, from what an issue that closes the region leaves: at the next word with the cores as they are where FLAG is clear, and at
the target without the region's entries where it is set. -/
theorem commitBranch : Obligations.CommitBranch := by
  intro s act pc o w r closed h whole ready
  cases flag : s.warp.region.flag with
  | false =>
    obtain ⟨region, keeps, spill, cores, elsewhere⟩ := h.closes whole ready _ rfl _ _ (State.commitB_clear flag _)
    exact ⟨_, exec_commitB o s, region, elsewhere, spill, fun _ => ⟨cores, keeps⟩, nofun⟩
  | true =>
    obtain ⟨region, keeps, spill, cores, elsewhere⟩ := h.closes whole ready _ rfl _ _ (State.commitB_set flag _)
    rw [branchTarget_eq] at keeps
    exact ⟨_, exec_commitB o s, region, elsewhere, spill, nofun, fun _ => ⟨keeps, cores⟩⟩

end Sys2Proof.Machine
end
